-- ==== Sys2Proof/Word.lean ====
section
/-! DEFINITION. The words of the DRTP protocol engine: bytes, the 16-bit fields of a frame, the 17-bit counters, the
32-bit byte counter, and the two types the spec leaves open (an address, a time). -/

namespace Sys2Proof

/-- A byte is 8 bits (spec/00_scope.md R12). -/
abbrev Byte := BitVec 8

/-- A byte string (spec/00_scope.md R12). -/
abbrev Bytes := List Byte

/-- `u16`: the width of every header field (spec/00_scope.md R11, spec/30_encoding.md R91). -/
abbrev U16 := BitVec 16

/-- `u17`: the width of the counters BASE, NEXT, TOTAL, RTX and EXPECTED (spec/10_state.md R20, R31). -/
abbrev U17 := BitVec 17

/-- The width of the counter BYTES (spec/10_state.md R45). -/
abbrev U32 := BitVec 32

/-- A network address: the number of an element of the spec's opaque type Addr (spec/00_scope.md R9, D27). Which numbers
are addresses is an argument of the machine, `Config.Params.addrCount`. DESIGN CHOICE (notes/assumptions/1.md): the
elements are numbered; no rule inspects a number. -/
abbrev Addr := Nat

/-- A value of the `now` input: the number of an element of the spec's open type Time (spec/00_scope.md R9, D17). The
subtraction of that type is an argument of the machine, `Config.Params.timeSub`; its order is read by no rule. DESIGN
CHOICE (notes/assumptions/2.md): the elements are numbered. -/
abbrev Time := Int

end Sys2Proof
end

