-- ==== Sys2Proof/Config.lean ====
section
/-! DEFINITION. What an implementation of the engine fixes: the source's constants (spec/00_scope.md R8) and the open
parameters (spec/00_scope.md R9), the latter with no value that a proof could see. -/

namespace Sys2Proof.Config

/-- HDR_LEN: "the fixed 8-byte header" (spec/00_scope.md R8). -/
abbrev hdrLen : Nat := 8

/-- MAX_PAYLOAD: "up to 992-byte payload" (spec/00_scope.md R8). -/
abbrev maxPayload : Nat := 992

/-- CHUNK_SIZE: "chunk size (fixed 992 bytes)" (spec/00_scope.md R8). -/
abbrev chunkSize : Nat := 992

/-- MAX_FRAME: "total wire size = 8 + len(payload) ≤ 1000 bytes" (spec/00_scope.md R8). -/
abbrev maxFrame : Nat := 1000

/-- TIMEOUT in milliseconds: a label of the expiry event, on which no rule depends (spec/60_exceptions.md R233,
spec/70_reset_and_hazards.md R261). -/
abbrev timeoutMs : Nat := 400

/-- DEFAULT_SENDER_WINDOW: "sender window size (default 3)" (spec/00_scope.md R8). -/
abbrev defaultSenderWindow : U16 := 3

/-- FIRST_SEQ: "1-based per transfer" (spec/00_scope.md R8). -/
abbrev firstSeq : U17 := 1

/-- The most chunks of one transfer, the source's "explicit capacity limit" (spec/00_scope.md R10,
spec/10_state.md R31). -/
abbrev maxChunks : Nat := 65535

/-- RX_MAX where it is not set: "default 1000" (spec/00_scope.md R9). -/
abbrev rxMaxDefault : Nat := 1000

/-- The subtraction that the type Time comes with (spec/00_scope.md R9, D17): that of the integers, or any other. -/
inductive TimeSub where
  | integers
  | other
  deriving DecidableEq, Repr, Inhabited

/-- The subtraction of a type Time that is not the integers, on the numbers of its values. DESIGN CHOICE
(notes/assumptions/2.md): free. -/
opaque otherTimeSub : Time → Time → Time

/-- The open parameters of spec/00_scope.md R9, the machine's arguments. They are fixed for the machine: State carries
one record of them, which no step writes (notes/assumptions/3.md). -/
structure Params where
  /-- ADV_WINDOW, the advertised window, 1 to 65535 (D26). -/
  advWindow : U16
  /-- RXQ_DEPTH, the capacity of the RX queue, at least 1; `none` is "unbounded" (D12). -/
  rxqDepth : Option Nat
  /-- RX_MAX, the longest datagram the RX port hands over, at least 1000, 1000 by default (D12). -/
  rxMax : Nat := rxMaxDefault
  /-- How many addresses the type Addr has, at least 1; `none` is "no bound". The addresses are the numbers below it
  (D27). -/
  addrCount : Option Nat := none
  /-- The subtraction of the type Time (D17). -/
  timeSub : TimeSub := .integers
  deriving DecidableEq, Repr

/-- Is `a` the number of an element of Addr? -/
def Params.isAddr (p : Params) (a : Addr) : Bool :=
  match p.addrCount with
  | none => true
  | some n => decide (a < n)

/-- `a − b` in the type Time. -/
def Params.minus (p : Params) (a b : Time) : Time :=
  match p.timeSub with
  | .integers => a - b
  | .other => otherTimeSub a b

/-- The bounds spec/00_scope.md R9 sets on the open parameters. -/
def Params.wf (p : Params) : Bool :=
  p.advWindow != 0 && decide (maxFrame ≤ p.rxMax) &&
    (match p.rxqDepth with
     | none => true
     | some n => decide (1 ≤ n)) &&
    p.isAddr 0

/-- The free value behind ADV_WINDOW: the source states none (D26, N2). DESIGN CHOICE (notes/assumptions/3.md): free. -/
opaque advWindowDraw : U16

/-- The free value behind RXQ_DEPTH (D12). DESIGN CHOICE (notes/assumptions/3.md): free. -/
opaque rxqDepthDraw : Option Nat

/-- The free value behind RX_MAX (D12): left at its default, or set, as the excess over 1000. DESIGN CHOICE
(notes/assumptions/3.md): free. -/
opaque rxMaxSetting : Option Nat

/-- The free value behind the number of addresses (D27), as the excess over 1. DESIGN CHOICE (notes/assumptions/1.md):
free. -/
opaque addrCountDraw : Option Nat

/-- The free choice of the subtraction of Time (D17). DESIGN CHOICE (notes/assumptions/2.md): free. -/
opaque timeSubDraw : TimeSub

/-- The parameters of the machine that State.reset describes: every record within the bounds of
spec/00_scope.md R9 can be the one meant here. -/
def params : Params where
  advWindow := if advWindowDraw = 0 then 1 else advWindowDraw
  rxqDepth := rxqDepthDraw.map (· + 1)
  rxMax :=
    match rxMaxSetting with
    | none => rxMaxDefault
    | some n => maxFrame + n
  addrCount := addrCountDraw.map (· + 1)
  timeSub := timeSubDraw

end Sys2Proof.Config
end

