-- ==== Sys2Proof/Syntax.lean ====
section
/-! DEFINITION. The syntax of the engine: a frame, what stands on its two input ports (a datagram, a command word with
its argument lines), and the instructions: the six frame kinds and the eight command codes of
spec/opcode_table.json. -/

namespace Sys2Proof

/-- A frame: the four 16-bit header fields and the payload (spec/30_encoding.md R91). -/
structure Frame where
  seq : U16
  ack : U16
  flags : U16
  window : U16
  payload : Bytes
  deriving DecidableEq, Repr

/-- A frame with every field 0 and an empty payload. -/
def Frame.zero : Frame := ⟨0, 0, 0, 0, []⟩

/-- The operands of a frame instruction: everything of a received frame that its kind does not fix (the kind fixes the
flags, spec/30_encoding.md R95), and the address it came from. -/
structure FrameArgs where
  src : Addr
  seq : U16
  ack : U16
  window : U16
  payload : Bytes
  deriving DecidableEq, Repr

/-- The argument lines beside the 3-bit command code on the command port (spec/30_encoding.md R103). A command reads
only its own lines. `total` is a number of any size: the port can carry a number over 65535, which SEND_ALL refuses
(spec/42_sender_arq.md R170). -/
structure CmdArgs where
  frame : Frame
  bytes : Bytes
  peer : Addr
  cfgWindow : U16
  total : Nat
  deriving DecidableEq, Repr

/-- Argument lines that are all zero or empty. -/
def CmdArgs.zero : CmdArgs := ⟨Frame.zero, [], 0, 0, 0⟩

/-- What the decoder is given: a datagram of the RX port with its source address (spec/20_memory.md R65), or a word of
the command port with its argument lines (spec/30_encoding.md R103). -/
inductive Raw where
  | datagram (src : Addr) (bytes : Bytes)
  | command (code : BitVec 3) (args : CmdArgs)
  deriving DecidableEq, Repr

/-- The instructions, one constructor per row of spec/opcode_table.json: the six frame kinds (spec/30_encoding.md R95)
as the engine takes them from the RX port, and the eight command codes (spec/30_encoding.md R103, R104). -/
inductive Instr where
  | syn (a : FrameArgs)
  | synack (a : FrameArgs)
  | ack (a : FrameArgs)
  | fin (a : FrameArgs)
  | finack (a : FrameArgs)
  | data (a : FrameArgs)
  | cmdReserved
  | encode (f : Frame)
  | decode (b : Bytes)
  | openConn (peer : Addr) (cfgWindow : U16)
  | accept
  | sendAll (total : Nat)
  | recvAll
  | close
  deriving DecidableEq, Repr

/-- `kind(f)` of spec/30_encoding.md R96: the six kinds and OTHER. -/
inductive Kind where
  | syn
  | synack
  | ack
  | fin
  | finack
  | data
  | other
  deriving DecidableEq, Repr

/-- Why a datagram is no instruction: it is shorter than a header (spec/40_codec.md R124), or it is a frame of kind
OTHER, which the opcode table has no row for and which the engine nevertheless handles (spec/30_encoding.md R96). -/
inductive DecodeError where
  | shortHeader
  | otherKind (f : Frame)
  deriving DecidableEq, Repr

end Sys2Proof
end

