-- ==== Sys2Proof/WellFormed.lean ====
section
/-! DEFINITION. Which instructions the encodings of the spec admit: the constraint of the DATA row, the payload bound of
a frame, and the range of SEND_ALL's operand. -/

namespace Sys2Proof

/-- A payload an encoder accepts: at most 992 bytes (spec/40_codec.md R120, R121). -/
def payloadFits (p : Bytes) : Bool := decide (p.length ≤ Config.maxPayload)

/-- The constraint a mask cannot express: a DATA frame has a sequence other than 0 (spec/30_encoding.md R95, R105).
An instruction the decoder produces always meets it; its payload may still be over 992 bytes
(spec/30_encoding.md R101). -/
def Instr.inTable : Instr → Bool
  | .syn _ => true
  | .synack _ => true
  | .ack _ => true
  | .fin _ => true
  | .finack _ => true
  | .data a => a.seq != 0
  | .cmdReserved => true
  | .encode _ => true
  | .decode _ => true
  | .openConn _ _ => true
  | .accept => true
  | .sendAll _ => true
  | .recvAll => true
  | .close => true

/-- An instruction as a conforming sender or host writes it: a frame that an encoder can produce
(spec/30_encoding.md R90, R95) or a command whose operands are in the ranges of spec/30_encoding.md R103. ENCODE and
DECODE take byte strings of any length, OPEN any u16. -/
def Instr.wellFormed : Instr → Bool
  | .syn a => payloadFits a.payload
  | .synack a => payloadFits a.payload
  | .ack a => payloadFits a.payload
  | .fin a => payloadFits a.payload
  | .finack a => payloadFits a.payload
  | .data a => payloadFits a.payload && a.seq != 0
  | .cmdReserved => true
  | .encode _ => true
  | .decode _ => true
  | .openConn _ _ => true
  | .accept => true
  | .sendAll total => decide (total ≤ Config.maxChunks)
  | .recvAll => true
  | .close => true

end Sys2Proof
end

