-- ==== Sys2Proof/Decode.lean ====
section
/-! DEFINITION. The Frame Codec (spec/40_codec.md R120, R123), the decoder of the two input ports, and, after it, the
encoder written from the same tables (spec/30_encoding.md R91, R95, R103). -/

namespace Sys2Proof

/-! ## Bytes and fields -/

/-- `be16(v)`: the two bytes of a 16-bit field, the more significant first (spec/00_scope.md R12, D3). -/
def be16 (v : U16) : Bytes := [BitVec.ofNat 8 (v.toNat / 256), BitVec.ofNat 8 (v.toNat % 256)]

/-- `unbe16(b0, b1) = 256*b0 + b1` (spec/00_scope.md R12). -/
def unbe16 (b0 b1 : Byte) : U16 := BitVec.ofNat 16 (256 * b0.toNat + b1.toNat)

/-- The bytes of a frame: sequence at 0, acknowledgment at 2, flags at 4, window at 6, payload from 8
(spec/30_encoding.md R91). -/
def Frame.bytes (f : Frame) : Bytes :=
  be16 f.seq ++ be16 f.ack ++ be16 f.flags ++ be16 f.window ++ f.payload

/-- `encode` of spec/40_codec.md R120; `none` is InvalidPayload, raised exactly for a payload over 992 bytes (R121). -/
def codecEncode (f : Frame) : Option Bytes :=
  if Config.maxPayload < f.payload.length then none else some f.bytes

/-- `decode` of spec/40_codec.md R123; `none` is ShortHeader, raised exactly for fewer than 8 bytes (R124). -/
def codecDecode (b : Bytes) : Option Frame :=
  match b with
  | b0 :: b1 :: b2 :: b3 :: b4 :: b5 :: b6 :: b7 :: rest =>
    some ⟨unbe16 b0 b1, unbe16 b2 b3, unbe16 b4 b5, unbe16 b6 b7, rest⟩
  | _ => none

/-! ## The flags values of the six kinds -/

/-- SYN: flags 0x0002 (spec/30_encoding.md R95). -/
def flagsSyn : U16 := 0x0002

/-- SYN-ACK: flags 0x000A (spec/30_encoding.md R95). -/
def flagsSynack : U16 := 0x000A

/-- ACK: flags 0x0008 (spec/30_encoding.md R95). -/
def flagsAck : U16 := 0x0008

/-- FIN: flags 0x0001 (spec/30_encoding.md R95). -/
def flagsFin : U16 := 0x0001

/-- FIN-ACK: flags 0x0009 (spec/30_encoding.md R95). -/
def flagsFinack : U16 := 0x0009

/-- DATA: flags 0x0000 (spec/30_encoding.md R95). -/
def flagsData : U16 := 0x0000

/-- `kind(f)` of spec/30_encoding.md R96: the kind whose exact flags value is the frame's, and for DATA a sequence other
than 0; every other frame is OTHER. -/
def Frame.kind (f : Frame) : Kind :=
  if f.flags = flagsSyn then .syn
  else if f.flags = flagsSynack then .synack
  else if f.flags = flagsAck then .ack
  else if f.flags = flagsFin then .fin
  else if f.flags = flagsFinack then .finack
  else if f.flags = flagsData ∧ f.seq ≠ 0 then .data
  else .other

/-! ## The decoder -/

/-- The operands of a frame of a known kind. -/
def Frame.args (f : Frame) (src : Addr) : FrameArgs := ⟨src, f.seq, f.ack, f.window, f.payload⟩

/-- The instruction of a decoded frame: its kind, or a rejection by name for OTHER. -/
def frameInstr (f : Frame) (src : Addr) : Except DecodeError Instr :=
  match f.kind with
  | .syn => .ok (.syn (f.args src))
  | .synack => .ok (.synack (f.args src))
  | .ack => .ok (.ack (f.args src))
  | .fin => .ok (.fin (f.args src))
  | .finack => .ok (.finack (f.args src))
  | .data => .ok (.data (f.args src))
  | .other => .error (.otherKind f)

/-- The command of a 3-bit code with its argument lines (spec/30_encoding.md R103, R104): every code has a row. -/
def decodeCommand (code : BitVec 3) (args : CmdArgs) : Instr :=
  if code = 0 then .cmdReserved
  else if code = 1 then .encode args.frame
  else if code = 2 then .decode args.bytes
  else if code = 3 then .openConn args.peer args.cfgWindow
  else if code = 4 then .accept
  else if code = 5 then .sendAll args.total
  else if code = 6 then .recvAll
  else .close

/-- The decoder, total on every input: a datagram shorter than 8 bytes and a frame of kind OTHER are rejected by name
(spec/40_codec.md R124, spec/30_encoding.md R96). -/
def decode (r : Raw) : Except DecodeError Instr :=
  match r with
  | .datagram src b =>
    match codecDecode b with
    | none => .error .shortHeader
    | some f => frameInstr f src
  | .command code args => .ok (decodeCommand code args)

/-! ## The encoder -/

/-- The frame that a kind's operands stand for. -/
def FrameArgs.frame (a : FrameArgs) (flags : U16) : Frame := ⟨a.seq, a.ack, flags, a.window, a.payload⟩

/-- The words of an instruction: a datagram with its source address, or a command code with its argument lines, the
lines a command does not read being zero (spec/30_encoding.md R91, R95, R103). -/
def encode : Instr → Raw
  | .syn a => .datagram a.src (a.frame flagsSyn).bytes
  | .synack a => .datagram a.src (a.frame flagsSynack).bytes
  | .ack a => .datagram a.src (a.frame flagsAck).bytes
  | .fin a => .datagram a.src (a.frame flagsFin).bytes
  | .finack a => .datagram a.src (a.frame flagsFinack).bytes
  | .data a => .datagram a.src (a.frame flagsData).bytes
  | .cmdReserved => .command 0 CmdArgs.zero
  | .encode f => .command 1 { CmdArgs.zero with frame := f }
  | .decode b => .command 2 { CmdArgs.zero with bytes := b }
  | .openConn peer w => .command 3 { CmdArgs.zero with peer := peer, cfgWindow := w }
  | .accept => .command 4 CmdArgs.zero
  | .sendAll total => .command 5 { CmdArgs.zero with total := total }
  | .recvAll => .command 6 CmdArgs.zero
  | .close => .command 7 CmdArgs.zero

/-! ## The words of spec/opcode_table.json -/

/-- The header as one 64-bit word, byte 0 most significant (spec/30_encoding.md R93):
`sequence × 2^48 + acknowledgment × 2^32 + flags × 2^16 + window`. -/
def Frame.headerWord (f : Frame) : BitVec 64 :=
  BitVec.ofNat 64 (f.seq.toNat * 2 ^ 48 + f.ack.toNat * 2 ^ 32 + f.flags.toNat * 2 ^ 16 + f.window.toNat)

/-- The eight header bytes of a 64-bit word of spec/opcode_table.json, as they stand in a datagram: the most
significant byte at offset 0 (spec/30_encoding.md R93). -/
def headerBytes (w : Nat) : Bytes :=
  [BitVec.ofNat 8 (w / 2 ^ 56), BitVec.ofNat 8 (w / 2 ^ 48), BitVec.ofNat 8 (w / 2 ^ 40), BitVec.ofNat 8 (w / 2 ^ 32),
   BitVec.ofNat 8 (w / 2 ^ 24), BitVec.ofNat 8 (w / 2 ^ 16), BitVec.ofNat 8 (w / 2 ^ 8), BitVec.ofNat 8 w]

/-- The port word of a row of spec/opcode_table.json: a datagram of 8 bytes for a row of 64 bits; for a command row its
3-bit code (mask 0x7; the upper five bits of its byte are no part of the code, notes/assumptions/10.md) with argument
lines of zeros. The source address of a table word is 0 (notes/assumptions/9.md). -/
def tableRaw (nbits w : Nat) : Option Raw :=
  if nbits = 64 then some (.datagram 0 (headerBytes w))
  else if nbits = 8 ∨ nbits = 3 then some (.command (BitVec.ofNat 3 w) CmdArgs.zero)
  else none

/-- The instruction the decoder reads from a word numbered as spec/opcode_table.json numbers it. -/
def decodeTableWord (nbits w : Nat) : Option Instr :=
  match tableRaw nbits w with
  | none => none
  | some r =>
    match decode r with
    | .ok i => some i
    | .error _ => none

end Sys2Proof
end

