-- ==== Sys2Proof/Machine/State.lean ====
section
/-! DEFINITION. The state of the engine (spec/10_state.md R20): its registers, its RX queue, its outputs (R44), and the
inputs of its step relation (R47) as plain data; the reasons a step can stop; the state after reset (R48). -/

namespace Sys2Proof.Machine

/-- STATE, the lifecycle state (spec/10_state.md R21). -/
inductive Lifecycle where
  | idle
  | synSent
  | synRcvd
  | established
  | finSent
  | finRcvd
  | closed
  deriving DecidableEq, Repr

/-- The 3-bit code of STATE (spec/10_state.md R21); code 7 is reserved and never written. -/
def Lifecycle.code : Lifecycle → BitVec 3
  | .idle => 0
  | .synSent => 1
  | .synRcvd => 2
  | .established => 3
  | .finSent => 4
  | .finRcvd => 5
  | .closed => 6

/-- PHASE, the position within the command in progress (spec/10_state.md R22). -/
inductive Phase where
  | none
  | listen
  | hsWait
  | fill
  | wait
  | retx
  | recv
  | finWait
  deriving DecidableEq, Repr

/-- The 3-bit code of PHASE (spec/10_state.md R22). -/
def Phase.code : Phase → BitVec 3
  | .none => 0
  | .listen => 1
  | .hsWait => 2
  | .fill => 3
  | .wait => 4
  | .retx => 5
  | .recv => 6
  | .finWait => 7

/-- ROLE (spec/10_state.md R25). -/
inductive Role where
  | none
  | client
  | server
  deriving DecidableEq, Repr

/-- The 2-bit code of ROLE (spec/10_state.md R25); code 3 is reserved and never written. -/
def Role.code : Role → BitVec 2
  | .none => 0
  | .client => 1
  | .server => 2

/-- The conditions the engine can raise (spec/60_exceptions.md R210); `none` is "no error". ERR holds one. -/
inductive ErrCode where
  | none
  | shortHeader
  | invalidPayload
  | handshakeTimeout
  | handshakeProtocolError
  | dataTimeout
  | outOfOrder
  | teardownTimeout
  | socketError
  | cmdRefused
  deriving DecidableEq, Repr

/-- The 4-bit code of a condition (spec/60_exceptions.md R210); codes 10 to 15 are never produced. -/
def ErrCode.code : ErrCode → BitVec 4
  | .none => 0
  | .shortHeader => 1
  | .invalidPayload => 2
  | .handshakeTimeout => 3
  | .handshakeProtocolError => 4
  | .dataTimeout => 5
  | .outOfOrder => 6
  | .teardownTimeout => 7
  | .socketError => 8
  | .cmdRefused => 9

/-- The class "fatal" of spec/60_exceptions.md R210, R211. -/
def ErrCode.fatal : ErrCode → Bool
  | .none => false
  | .shortHeader => true
  | .invalidPayload => true
  | .handshakeTimeout => true
  | .handshakeProtocolError => true
  | .dataTimeout => false
  | .outOfOrder => false
  | .teardownTimeout => false
  | .socketError => true
  | .cmdRefused => false

/-- `Stats{bytes_transferred, elapsed_time}` (spec/10_state.md R45, R46). -/
structure Stats where
  bytes : U32
  elapsed : Time
  deriving DecidableEq, Repr

/-- What a command posts on the result port (spec/30_encoding.md R103, spec/60_exceptions.md R212, R221). -/
inductive CmdResult where
  /-- ENCODE's `Ok bytes`. -/
  | okBytes (b : Bytes)
  /-- DECODE's `Ok Frame`. -/
  | okFrame (f : Frame)
  /-- OPEN's `Ok NEG_WINDOW`. -/
  | okWindow (w : U16)
  /-- ACCEPT's `Ok PEER`. -/
  | okPeer (a : Addr)
  /-- SEND_ALL's and RECV_ALL's `Ok Stats`. -/
  | okStats (s : Stats)
  /-- CLOSE's `Ok Closed`. -/
  | okClosed
  /-- CLOSE's `Ok TeardownTimeout`. -/
  | okTeardownTimeout
  /-- `Err E` with nothing beside it. -/
  | err (e : ErrCode)
  /-- `Err(E, Stats)` of RECV_ALL (spec/43_receiver.md R192). -/
  | errRecv (e : ErrCode) (s : Stats)
  /-- `Err(E, Stats, acked)` of SEND_ALL (spec/42_sender_arq.md R184). -/
  | errSend (e : ErrCode) (s : Stats) (acked : Nat)
  deriving DecidableEq, Repr

/-- The trace events of spec/60_exceptions.md R238. -/
inductive TraceEvent where
  | sent (seq : U16) (base next : U17)
  | retransmitted (seq : U16) (base next : U17)
  | ackReceived (ack : U16)
  | dataTimeout (base next : U17)
  | delivered (seq : U16) (len : Nat)
  | outOfOrder (seq : U16) (expected : U17)
  | dropped (seq : U16)
  | finReceived
  | teardownTimeout
  deriving DecidableEq, Repr

/-- One output of the engine (spec/10_state.md R44): a datagram on the TX port (spec/20_memory.md R66), a chunk on the
sink (R64), a trace event (spec/60_exceptions.md R238), a result. -/
inductive Output where
  | tx (dst : Addr) (b : Bytes)
  | sink (b : Bytes)
  | trace (e : TraceEvent)
  | result (r : CmdResult)
  deriving DecidableEq, Repr

/-- An entry of the RX queue: source address and bytes (spec/10_state.md R43). -/
structure Datagram where
  src : Addr
  bytes : Bytes
  deriving DecidableEq, Repr

/-- Chunk memory (spec/20_memory.md R61): the listed chunks by number, the numbers strictly rising, no listed chunk
empty; a chunk that is not listed reads as the empty byte string (notes/assumptions/11.md). -/
abbrev ChunkMem := List (Nat × Bytes)

/-- One move of the world outside the engine, or the word that the engine moves now (spec/00_scope.md R6,
spec/60_exceptions.md R222 to R226). The list of moves to come stands in State, so that every interleaving of the
agents is some list (notes/assumptions/5.md). -/
inductive Move where
  /-- The engine takes its own next step: a pop in a waiting phase, or an internal step (spec/60_exceptions.md R227). -/
  | engine
  /-- The host issues a command (spec/60_exceptions.md R225). -/
  | command (code : BitVec 3) (args : CmdArgs)
  /-- The network delivers a datagram to the RX port (spec/20_memory.md R70). -/
  | deliver (src : Addr) (b : Bytes)
  /-- The armed timer fires (spec/60_exceptions.md R223). -/
  | expire
  /-- The socket fails (spec/60_exceptions.md R224). -/
  | socketFail
  /-- The host asserts the reset input (spec/60_exceptions.md R226). -/
  | reset
  /-- The test seam writes DROP_SEQ and DROP_ARMED (spec/10_state.md R39). -/
  | seam (seq : U16) (armed : Bool)
  /-- The host stores one chunk in chunk memory (spec/20_memory.md R61). -/
  | storeChunk (k : Nat) (b : Bytes)
  /-- The host fills chunk memory with data cut at 992-byte boundaries (spec/20_memory.md R63). -/
  | fillChunks (data : Bytes)
  /-- The host's time source shows a new `now` (spec/10_state.md R46). -/
  | clock (t : Time)
  deriving DecidableEq, Repr

/-- The state of one engine instance and its surroundings. The registers stand in the order of spec/10_state.md R20. -/
structure State where
  /-- STATE (R21). -/
  lifecycle : Lifecycle
  /-- PHASE (R22). -/
  phase : Phase
  /-- ROLE (R25). -/
  role : Role
  /-- ERR (R26). -/
  err : ErrCode
  /-- RXF.seq, RXF.ack, RXF.flags, RXF.window, RXF.payload (R27); RXF.plen is `State.rxfPlen`. -/
  rxf : Frame
  /-- RXF.src (R27). -/
  rxfSrc : Addr
  /-- TXF.seq, TXF.ack, TXF.flags, TXF.window, TXF.payload (R28); TXF.plen is `State.txfPlen`. -/
  txf : Frame
  /-- TXF.dst (R28). -/
  txfDst : Addr
  /-- BASE (R29). -/
  base : U17
  /-- NEXT (R30). -/
  nextSeq : U17
  /-- TOTAL (R31). -/
  total : U17
  /-- RTX (R32). -/
  rtx : U17
  /-- EXPECTED (R33). -/
  expected : U17
  /-- CFG_WINDOW (R35). -/
  cfgWindow : U16
  /-- PEER_WINDOW (R36). -/
  peerWindow : U16
  /-- NEG_WINDOW (R37). -/
  negWindow : U16
  /-- PEER (R38). -/
  peer : Addr
  /-- DROP_SEQ (R39). -/
  dropSeq : U16
  /-- DROP_ARMED (R39). -/
  dropArmed : Bool
  /-- TIMER_ARMED (R40). -/
  timerArmed : Bool
  /-- BYTES (R45). -/
  bytes : U32
  /-- T0 (R46). -/
  t0 : Time
  /-- ELAPSED (R46). -/
  elapsed : Time
  /-- The RX queue, head first (R43). -/
  rxQueue : List Datagram
  /-- The outputs in the order they were made: TX history, sink, trace, results (R44). -/
  out : List Output
  /-- The contents of chunk memory, an input the engine only reads (R47). -/
  chunks : ChunkMem
  /-- The `now` input (R46, R47). -/
  now : Time
  /-- The open parameters (R47); no step writes them. -/
  params : Config.Params
  /-- The moves to come (R47); when none is listed, every step is the engine's own. -/
  moves : List Move
  deriving DecidableEq, Repr

/-- RXF.plen: the length of the payload of the frame just received (spec/10_state.md R27). -/
def State.rxfPlen (s : State) : Nat := s.rxf.payload.length

/-- TXF.plen (spec/10_state.md R28). -/
def State.txfPlen (s : State) : Nat := s.txf.payload.length

/-- Why a step stops with a fault. -/
inductive Fault where
  /-- Raised by the moves `storeChunk` and `fillChunks` for a chunk number outside 1 to 65535, which chunk memory does
  not have (spec/20_memory.md R60). Safe: no instruction raises it. -/
  | noSuchChunk
  deriving DecidableEq, Repr

/-- Why a step is refused. -/
inductive Refusal where
  /-- An instruction that has no meaning yet. No arm of exec raises it. Safe. -/
  | notModelled (mnemonic : String)
  /-- Raised by the moves `storeChunk` and `fillChunks` while SEND_ALL is in progress: the model takes the chunk sequence
  as immutable from the acceptance of SEND_ALL to its result (spec/93_implementation_defined.md U18,
  spec/70_reset_and_hazards.md R254). Safe: no instruction raises it. -/
  | chunkMemoryInUse
  deriving DecidableEq, Repr

/-- The machine right after reset (spec/10_state.md R48). RXF, TXF, PEER, T0 and ELAPSED, which the spec leaves
unspecified, are 0: DESIGN CHOICE, unsafe (notes/assumptions/4.md). Chunk memory lists nothing, `now` is 0, no move is
to come. The parameters are the machine's arguments (spec/00_scope.md R9). -/
def State.resetWith (p : Config.Params) : State where
  lifecycle := .idle
  phase := .none
  role := .none
  err := .none
  rxf := Frame.zero
  rxfSrc := 0
  txf := Frame.zero
  txfDst := 0
  base := 1
  nextSeq := 1
  total := 0
  rtx := 1
  expected := 1
  cfgWindow := 3
  peerWindow := 0
  negWindow := 0
  peer := 0
  dropSeq := 0
  dropArmed := false
  timerArmed := false
  bytes := 0
  t0 := 0
  elapsed := 0
  rxQueue := []
  out := []
  chunks := []
  now := 0
  params := p
  moves := []

/-- The machine right after reset, with the free parameters of Config. -/
def State.reset : State := State.resetWith Config.params

end Sys2Proof.Machine
end

