-- ==== Sys2Proof/Machine/Flags.lean ====
section
/-! DEFINITION. The flag bits of a frame (spec/10_state.md R41) and the waits whose receive tests read them
(spec/30_encoding.md R97). The engine has no other flags: no operation produces a carry, zero, overflow or sign flag
(spec/10_state.md R42). -/

namespace Sys2Proof.Machine

/-- `f.FIN`: bit 0 of the flags field, bit 0 the least significant (spec/30_encoding.md R92, D2). -/
def finBit (f : Frame) : Bool := f.flags.getLsbD 0

/-- `f.SYN`: bit 1 of the flags field. -/
def synBit (f : Frame) : Bool := f.flags.getLsbD 1

/-- `f.RST`: bit 2 of the flags field, reserved: no rule of the engine reads it (spec/30_encoding.md R98). -/
def rstBit (f : Frame) : Bool := f.flags.getLsbD 2

/-- `f.ACK`: bit 3 of the flags field. -/
def ackBit (f : Frame) : Bool := f.flags.getLsbD 3

/-- The waits for a frame: one per row of the table of spec/30_encoding.md R97. -/
inductive Wait where
  | clientReply
  | serverListen
  | serverThird
  | senderAck
  | clientClose
  | receiver
  deriving DecidableEq, Repr

/-- The wait the engine is in, from STATE and PHASE (the first column of spec/30_encoding.md R97); `none` in a phase
that leaves an arriving frame in the RX queue (spec/60_exceptions.md R222, R227) and in the pairs of STATE and PHASE that
spec/10_state.md R22 does not have (notes/assumptions/16.md). -/
def waitOf (l : Lifecycle) (p : Phase) : Option Wait :=
  match l, p with
  | .synSent, .hsWait => some .clientReply
  | .idle, .listen => some .serverListen
  | .synRcvd, .hsWait => some .serverThird
  | .established, .wait => some .senderAck
  | .finSent, .finWait => some .clientClose
  | .established, .recv => some .receiver
  | _, _ => none

end Sys2Proof.Machine
end

