-- ==== Sys2Proof/Machine/Operands.lean ====
section
/-! DEFINITION. The operand forms of the engine: the arithmetic of spec/00_scope.md R16, the frames the engine emits
(spec/30_encoding.md R108), chunk memory as the sender reads it and as the host fills it (spec/20_memory.md R61 to
R63). -/

namespace Sys2Proof.Machine

/-! ## Arithmetic (spec/00_scope.md R16) -/

/-- `(x + 1) mod 65536`: the acknowledgment field of the SYN-ACK and of the handshake ACK (R16 (a), D6). -/
def plusOne16 (x : U16) : U16 := x + 1

/-- A u16 zero-extended to the width of the counters (R16 (b), (e)). -/
def zext17 (x : U16) : U17 := x.setWidth 17

/-- `C[15:0]` of a counter, as it is put in a 16-bit field (R16 (i)). -/
def low16 (c : U17) : U16 := c.setWidth 16

/-- `min(a, b)` on two u16 (R16 (d)). -/
def min16 (a b : U16) : U16 := if a.toNat ≤ b.toNat then a else b

/-- `BYTES + n` on the 32-bit counter (R16 (f); notes/assumptions/13.md). -/
def addBytes (b : U32) (n : Nat) : U32 := b + BitVec.ofNat 32 n

/-! ## Emitted frames (spec/30_encoding.md R108; the unassigned fields are 0, D5) -/

/-- SYN of OPEN. -/
def synFrame : Frame := ⟨0, 0, flagsSyn, 0, []⟩

/-- SYN-ACK of ACCEPT, to a SYN with sequence `seq`. -/
def synackFrame (seq advWindow : U16) : Frame := ⟨0, plusOne16 seq, flagsSynack, advWindow, []⟩

/-- Handshake ACK of OPEN, to a SYN-ACK with sequence `seq`. -/
def ackControlFrame (seq : U16) : Frame := ⟨0, plusOne16 seq, flagsAck, 0, []⟩

/-- DATA of SEND_ALL for chunk `k`. -/
def dataFrame (k : U17) (negWindow : U16) (chunk : Bytes) : Frame := ⟨low16 k, 0, flagsData, negWindow, chunk⟩

/-- Data ACK of RECV_ALL. -/
def ackDataFrame (expected : U17) (advWindow : U16) : Frame := ⟨0, low16 expected, flagsAck, advWindow, []⟩

/-- FIN of CLOSE. -/
def finFrame : Frame := ⟨0, 0, flagsFin, 0, []⟩

/-- FIN-ACK of the server. -/
def finackFrame : Frame := ⟨0, 0, flagsFinack, 0, []⟩

/-! ## Chunk memory (spec/20_memory.md R61, R62) -/

/-- What a chunk that nothing has stored reads as: the empty byte string. DESIGN CHOICE, unsafe
(notes/assumptions/11.md). -/
def unlistedChunk : Bytes := []

/-- `ChunkRead(k)`: chunk `k` whole, with no side effect (spec/20_memory.md R62). -/
def chunkRead : ChunkMem → Nat → Bytes
  | [], _ => unlistedChunk
  | (j, c) :: m, k => if j = k then c else chunkRead m k

/-- Chunk memory with chunk `k` replaced by `b`, in canonical form. -/
def chunkWrite : ChunkMem → Nat → Bytes → ChunkMem
  | [], k, b => if b = unlistedChunk then [] else [(k, b)]
  | (j, c) :: m, k, b =>
    if k < j then (if b = unlistedChunk then (j, c) :: m else (k, b) :: (j, c) :: m)
    else if k = j then (if b = unlistedChunk then m else (k, b) :: m)
    else (j, c) :: chunkWrite m k b

/-- The canonical form of chunk memory: numbers from 1 to 65535 (spec/20_memory.md R60, spec/10_state.md R31), strictly
rising, and no entry equal to what an unlisted chunk reads as. -/
abbrev Memory.wf (m : ChunkMem) : Prop :=
  m.Pairwise (fun a b => a.1 < b.1) ∧ ∀ e ∈ m, 1 ≤ e.1 ∧ e.1 ≤ Config.maxChunks ∧ e.2 ≠ unlistedChunk

/-- The sum of `len(ChunkRead(k))` for `first ≤ k ≤ last` (spec/42_sender_arq.md R175). -/
def chunkBytes (m : ChunkMem) (first last : Nat) : Nat :=
  ((List.range' first (last + 1 - first)).map (fun k => (chunkRead m k).length)).sum

/-- `data` cut at fixed boundaries of 992 bytes, given at least as much fuel as it has bytes (spec/20_memory.md R63). -/
def cutAt992 : Nat → Bytes → List Bytes
  | 0, _ => []
  | _, [] => []
  | fuel + 1, b :: rest => (b :: rest).take Config.chunkSize :: cutAt992 fuel ((b :: rest).drop Config.chunkSize)

/-- The chunks of `data` as the host is expected to cut them (spec/20_memory.md R63). -/
def cutData (data : Bytes) : List Bytes := cutAt992 data.length data

/-- The chunks of a list numbered from `k` on. -/
def numberFrom : Nat → List Bytes → ChunkMem
  | _, [] => []
  | k, c :: cs => (k, c) :: numberFrom (k + 1) cs

end Sys2Proof.Machine
end

