-- ==== Sys2Proof/Machine/Ops.lean ====
section
/-! DEFINITION. The named operations every rule is written over (spec/00_scope.md R13): the RX queue and RXF, the output
ports, the timer, refusing a command, and the fatal action, which is this hardware's taking of an exception
(spec/60_exceptions.md R212). There is no return from it (R231). -/

namespace Sys2Proof.Machine

/-! ## The RX port (spec/20_memory.md R67, R70) -/

/-- Does the RX queue hold RXQ_DEPTH entries already (spec/20_memory.md R70)? -/
def queueFull (p : Config.Params) (q : List Datagram) : Bool :=
  match p.rxqDepth with
  | none => false
  | some n => decide (n ≤ q.length)

/-- The arrival of a datagram: cut to RX_MAX bytes, then queued at the tail unless RXQ_DEPTH entries wait already. -/
def State.deliver (src : Addr) (b : Bytes) (s : State) : State :=
  { s with
    rxQueue :=
      if queueFull s.params s.rxQueue then s.rxQueue else s.rxQueue ++ [⟨src, b.take s.params.rxMax⟩] }

/-- `RxPop()`: the head leaves the RX queue. -/
def State.rxPop (s : State) : State := { s with rxQueue := s.rxQueue.drop 1 }

/-- The common receive prelude for a datagram that decodes: `RxPop`, `RXF <- decode(b)`, `RXF.src <- src`
(spec/41_lifecycle.md R160). -/
def State.takeFrame (f : Frame) (src : Addr) (s : State) : State :=
  { s with rxQueue := s.rxQueue.drop 1, rxf := f, rxfSrc := src }

/-! ## The output ports (spec/10_state.md R44) -/

/-- `Tx(dst, encode(f))`: TXF takes the frame, and its bytes join the TX history (spec/20_memory.md R66,
spec/10_state.md R28). The caller has made sure that `encode` accepts the payload (spec/40_codec.md R121). -/
def State.tx (dst : Addr) (f : Frame) (s : State) : State :=
  { s with txf := f, txfDst := dst, out := s.out ++ [.tx dst f.bytes] }

/-- `SinkWrite(b)` (spec/20_memory.md R64). -/
def State.sinkWrite (b : Bytes) (s : State) : State := { s with out := s.out ++ [.sink b] }

/-- `Trace(e)` (spec/60_exceptions.md R238). -/
def State.emit (e : TraceEvent) (s : State) : State := { s with out := s.out ++ [.trace e] }

/-- `Result(r)` on the result port; the rule that posts it also ends the command (spec/00_scope.md R13). -/
def State.post (r : CmdResult) (s : State) : State := { s with out := s.out ++ [.result r] }

/-- The TX port history, in order. -/
def txHistory (o : List Output) : List (Addr × Bytes) :=
  o.filterMap fun x =>
    match x with
    | .tx d b => some (d, b)
    | _ => none

/-- The contents of the sink, in order. -/
def sinkChunks (o : List Output) : List Bytes :=
  o.filterMap fun x =>
    match x with
    | .sink b => some b
    | _ => none

/-- The trace events, in order. -/
def traceEvents (o : List Output) : List TraceEvent :=
  o.filterMap fun x =>
    match x with
    | .trace e => some e
    | _ => none

/-- The results posted, in order. -/
def results (o : List Output) : List CmdResult :=
  o.filterMap fun x =>
    match x with
    | .result r => some r
    | _ => none

/-! ## The timer (spec/60_exceptions.md R232) -/

/-- `TimerArm()`: TIMER_ARMED becomes 1; the fresh interval is not state (spec/10_state.md R40). -/
def State.timerArm (s : State) : State := { s with timerArmed := true }

/-- `TimerDisarm()`. -/
def State.timerDisarm (s : State) : State := { s with timerArmed := false }

/-! ## The sequencer (spec/10_state.md R23) -/

/-- `STATE <- l; PHASE <- p`. -/
def State.goto (l : Lifecycle) (p : Phase) (s : State) : State := { s with lifecycle := l, phase := p }

/-- `T0 <- now` (spec/10_state.md R46). -/
def State.startClock (s : State) : State := { s with t0 := s.now }

/-- `ELAPSED <- now - T0`, in the type Time (spec/10_state.md R46). -/
def State.stopClock (s : State) : State := { s with elapsed := s.params.minus s.now s.t0 }

/-- `Stats{BYTES, ELAPSED}`. -/
def State.stats (s : State) : Stats := ⟨s.bytes, s.elapsed⟩

/-! ## Refusing a command (spec/60_exceptions.md R221) -/

/-- `Result(Err CmdRefused)`: no register changes, nothing is transmitted. -/
def refuse (s : State) : State := s.post (.err .cmdRefused)

/-! ## The fatal action (spec/60_exceptions.md R212) -/

/-- Is the phase one of FILL, WAIT, RETX, RECV, in which the fatal action writes ELAPSED? -/
def timed : Phase → Bool
  | .fill => true
  | .wait => true
  | .retx => true
  | .recv => true
  | .none => false
  | .listen => false
  | .hsWait => false
  | .finWait => false

/-- The result of a command that a fatal error ends: with Stats and `acked = BASE − 1` for SEND_ALL
(spec/42_sender_arq.md R184), with Stats for RECV_ALL (spec/43_receiver.md R192), bare for the others. -/
def failResult (e : ErrCode) (p : Phase) (s : State) : CmdResult :=
  match p with
  | .fill => .errSend e s.stats (s.base.toNat - 1)
  | .wait => .errSend e s.stats (s.base.toNat - 1)
  | .retx => .errSend e s.stats (s.base.toNat - 1)
  | .recv => .errRecv e s.stats
  | .none => .err e
  | .listen => .err e
  | .hsWait => .err e
  | .finWait => .err e

/-- `raise E` for a fatal E: ERR is latched, the timer disarmed, ELAPSED written in a transfer, the Session closed, the
command ended with an error result; no frame is sent and every other register keeps its value. -/
def raiseFatal (e : ErrCode) (s : State) : State :=
  let s1 := { s with err := e, timerArmed := false, elapsed := if timed s.phase then s.params.minus s.now s.t0 else s.elapsed }
  (s1.goto .closed .none).post (failResult e s.phase s1)

end Sys2Proof.Machine
end

