-- ==== Sys2Proof/Machine/Codec.lean ====
section
/-! DEFINITION. The standalone codec commands ENCODE and DECODE (spec/40_codec.md R127, R128) and the reserved command
code (spec/30_encoding.md R104). -/

namespace Sys2Proof.Machine

/-- Code 0: refused with CmdRefused, nothing changes (spec/30_encoding.md R104). -/
def execCmdReserved (s : State) : Host.Outcome State Fault Refusal := .next (refuse s)

/-- ENCODE: a result only; no register is written and ERR is not latched (spec/40_codec.md R127). -/
def execEncode (f : Frame) (s : State) : Host.Outcome State Fault Refusal :=
  .next <|
    if s.phase = .none then
      match codecEncode f with
      | none => s.post (.err .invalidPayload)
      | some b => s.post (.okBytes b)
    else refuse s

/-- DECODE: a result only; not even RXF is written and the RX queue is left alone (spec/40_codec.md R128). -/
def execDecode (b : Bytes) (s : State) : Host.Outcome State Fault Refusal :=
  .next <|
    if s.phase = .none then
      match codecDecode b with
      | none => s.post (.err .shortHeader)
      | some f => s.post (.okFrame f)
    else refuse s

end Sys2Proof.Machine
end

