-- ==== Sys2Proof/Machine/Lifecycle.lean ====
section
/-! DEFINITION. The Connection Lifecycle State Machine (spec/41_lifecycle.md): OPEN, ACCEPT, CLOSE and the handling of
the frames and expiries of the handshake and the teardown. A rule "on a frame" is a function of the state after the
receive prelude (R160), which RXF holds the frame of. -/

namespace Sys2Proof.Machine

/-! ## Open -/

/-- OPEN(peer, cfg_window): one SYN, then the client's bounded wait (R141). -/
def execOpenConn (peer : Addr) (cfgWindow : U16) (s : State) : Host.Outcome State Fault Refusal :=
  .next <|
    if s.phase = .none ∧ s.lifecycle = .idle ∧ s.role = .none then
      ((({ s with role := .client, peer := peer, cfgWindow := cfgWindow }).tx peer synFrame).goto .synSent .hsWait).timerArm
    else refuse s

/-- ACCEPT(): the server's unbounded wait for the first frame (R146). -/
def execAccept (s : State) : Host.Outcome State Fault Refusal :=
  .next <|
    if s.phase = .none ∧ s.lifecycle = .idle ∧ s.role = .none then
      { s with role := .server, phase := .listen }
    else refuse s

/-- The client's reply: a frame with SYN and ACK set establishes the connection (R142), any other is fatal (R144). -/
def onClientReply (s : State) : State :=
  if synBit s.rxf ∧ ackBit s.rxf then
    let neg := min16 s.cfgWindow s.rxf.window
    ((({ s.timerDisarm with peerWindow := s.rxf.window, negWindow := neg }).tx s.peer (ackControlFrame s.rxf.seq)).goto
      .established .none).post (.okWindow neg)
  else raiseFatal .handshakeProtocolError s

/-- The server's first frame: one with SYN set is answered by a SYN-ACK to its source (R147), any other is fatal
(R148). -/
def onServerListen (s : State) : State :=
  if synBit s.rxf then
    (({ s with peer := s.rxfSrc }).tx s.rxfSrc (synackFrame s.rxf.seq s.params.advWindow)).goto .synRcvd .hsWait
  else raiseFatal .handshakeProtocolError s

/-- The third handshake frame: one with ACK set establishes the connection with its source as PEER (R149), any other
is fatal (R150). -/
def onServerThird (s : State) : State :=
  if ackBit s.rxf then
    (({ s with peer := s.rxfSrc }).goto .established .none).post (.okPeer s.rxfSrc)
  else raiseFatal .handshakeProtocolError s

/-! ## Close -/

/-- CLOSE(): one FIN, then the client's bounded wait (R151). -/
def execClose (s : State) : Host.Outcome State Fault Refusal :=
  .next <|
    if s.phase = .none ∧ s.lifecycle = .established ∧ s.role = .client then
      ((s.tx s.peer finFrame).goto .finSent .finWait).timerArm
    else refuse s

/-- A frame in the client's close: one with ACK set closes (R152), any other is discarded and the deadline stays where
it was (R153). -/
def onClientClose (s : State) : State :=
  if ackBit s.rxf then (s.timerDisarm.goto .closed .none).post .okClosed else s

/-- The teardown timeout: traced, and the client is closed anyway, ERR staying 0 (R154). -/
def teardownExpiry (s : State) : State :=
  ((s.emit .teardownTimeout).timerDisarm.goto .closed .none).post .okTeardownTimeout

/-- The internal step of FIN_RCVD: the FIN-ACK, the end of the stream, CLOSED (R156). -/
def sendFinack (s : State) : State :=
  let s1 := ((s.tx s.peer finackFrame).goto .closed .none).stopClock
  s1.post (.okStats s1.stats)

end Sys2Proof.Machine
end

