-- ==== Sys2Proof/Machine/Receiver.lean ====
section
/-! DEFINITION. The Receiver Delivery Engine (spec/43_receiver.md): RECV_ALL and the handling of one frame in its
phase. -/

namespace Sys2Proof.Machine

/-- RECV_ALL(): accepted for an established server; no timer, nothing transmitted, the drop registers left alone
(R190). -/
def execRecvAll (s : State) : Host.Outcome State Fault Refusal :=
  .next <|
    if s.phase = .none ∧ s.lifecycle = .established ∧ s.role = .server then
      { s.startClock with expected := Config.firstSeq, bytes := 0, phase := .recv }
    else refuse s

/-- A FIN ends the data phase unconditionally; the FIN-ACK is the next step's (R193, spec/41_lifecycle.md R155). -/
def recvFin (s : State) : State := { s.emit .finReceived with lifecycle := .finRcvd }

/-- The single-shot drop rule: the frame is discarded silently and the rule is spent (R194). -/
def recvDrop (s : State) : State := { s.emit (.dropped s.rxf.seq) with dropArmed := false }

/-- The in-order frame: delivered, then acknowledged to PEER with its own sequence, then counted (R195). -/
def recvAccept (s : State) : State :=
  let s1 := (s.sinkWrite s.rxf.payload).tx s.peer (ackDataFrame s.expected s.params.advWindow)
  { s1.emit (.delivered s.rxf.seq s.rxfPlen) with
    bytes := addBytes s.bytes s.rxfPlen, expected := s.expected + 1 }

/-- The out-of-order frame: discarded, not acknowledged (R196). -/
def recvDiscard (s : State) : State := s.emit (.outOfOrder s.rxf.seq s.expected)

/-- The tests of RECV, in their order: FIN, the drop rule, the sequence (R191). -/
def onReceiver (s : State) : State :=
  if finBit s.rxf then recvFin s
  else if s.dropArmed = true ∧ s.rxf.seq = s.dropSeq then recvDrop s
  else if zext17 s.rxf.seq = s.expected then recvAccept s
  else recvDiscard s

end Sys2Proof.Machine
end

