-- ==== Sys2Proof/Machine/Sender.lean ====
section
/-! DEFINITION. The Sender ARQ Engine (spec/42_sender_arq.md): SEND_ALL, the fill and retransmission steps, the
cumulative ACK, the Go-Back-N timeout. -/

namespace Sys2Proof.Machine

/-- SEND_ALL(total): accepted for an established client with at most 65535 chunks and a window of at least 1, or no
chunk at all; nothing is transmitted in this step (R170). -/
def execSendAll (total : Nat) (s : State) : Host.Outcome State Fault Refusal :=
  .next <|
    if s.phase = .none ∧ s.lifecycle = .established ∧ s.role = .client ∧ total ≤ Config.maxChunks ∧
        (1 ≤ s.negWindow.toNat ∨ total = 0) then
      { s.startClock with
        total := BitVec.ofNat 17 total, base := Config.firstSeq, nextSeq := Config.firstSeq, bytes := 0, phase := .fill }
    else refuse s

/-! ## Fill -/

/-- The end of SEND_ALL (R180). -/
def sendDone (s : State) : State :=
  let s1 := { s.stopClock with phase := .none }
  s1.post (.okStats s1.stats)

/-- The first transmission of a frame; a chunk over 992 bytes is fatal and nothing is sent (R172). -/
def sendNew (s : State) : State :=
  let p := chunkRead s.chunks s.nextSeq.toNat
  if Config.maxPayload < p.length then raiseFatal .invalidPayload s
  else
    { (s.tx s.peer (dataFrame s.nextSeq s.negWindow p)).emit (.sent (low16 s.nextSeq) s.base (s.nextSeq + 1)) with
      nextSeq := s.nextSeq + 1 }

/-- Window full or input exhausted: the wait begins, with a fresh timer (R173). -/
def enterWait (s : State) : State := ({ s with phase := .wait }).timerArm

/-- The dispatch of FILL, its conditions tested in this order (R171). The sum is on natural numbers, without wrap
(spec/00_scope.md R16 (c)). -/
def fillStep (s : State) : State :=
  if s.total.toNat < s.base.toNat then sendDone s
  else if s.nextSeq.toNat < s.base.toNat + s.negWindow.toNat ∧ s.nextSeq.toNat ≤ s.total.toNat then sendNew s
  else enterWait s

/-! ## Wait -/

/-- The cumulative ACK rule: BASE moves forward only, and only over frames that were sent (R175). -/
def applyAck (a : U16) (s : State) : State :=
  if s.base.toNat ≤ a.toNat ∧ a.toNat < s.nextSeq.toNat then
    { s with bytes := addBytes s.bytes (chunkBytes s.chunks s.base.toNat a.toNat), base := zext17 a + 1 }
  else s

/-- A frame in the sender's wait: one with ACK set ends the wait, whether or not it moves BASE (R174); any other is
discarded and the deadline stays where it was (R176). -/
def onSenderAck (s : State) : State :=
  if ackBit s.rxf then
    { (applyAck s.rxf.ack s.timerDisarm).emit (.ackReceived s.rxf.ack) with phase := .fill }
  else s

/-- The Go-Back-N timeout event: BASE and NEXT do not move, ERR is not written (R177). -/
def goBackN (s : State) : State :=
  { s.timerDisarm.emit (.dataTimeout s.base s.nextSeq) with rtx := s.base, phase := .retx }

/-! ## Retransmission -/

/-- The retransmission of one frame; a chunk over 992 bytes is fatal and nothing is sent (R178). -/
def resend (s : State) : State :=
  let p := chunkRead s.chunks s.rtx.toNat
  if Config.maxPayload < p.length then raiseFatal .invalidPayload s
  else
    { (s.tx s.peer (dataFrame s.rtx s.negWindow p)).emit (.retransmitted (low16 s.rtx) s.base s.nextSeq) with
      rtx := s.rtx + 1 }

/-- The dispatch of RETX: one more frame (R178), or back to the wait with a fresh timer (R179). -/
def retxStep (s : State) : State :=
  if s.rtx.toNat < s.nextSeq.toNat then resend s else enterWait s

end Sys2Proof.Machine
end

