-- ==== Sys2Proof/Machine/Frames.lean ====
section
/-! DEFINITION. The six frame kinds as instructions: the frame at the head of the RX queue is taken by the engine
(spec/40_codec.md R129 to R134). The engine tests single bits, never the kind (spec/30_encoding.md R96, R97), so all six
meanings are one operation, which frames of kind OTHER go through as well. -/

namespace Sys2Proof.Machine

/-- The rule of a wait, on the state after the receive prelude (spec/30_encoding.md R97). -/
def onFrame : Wait → State → State
  | .clientReply => onClientReply
  | .serverListen => onServerListen
  | .serverThird => onServerThird
  | .senderAck => onSenderAck
  | .clientClose => onClientClose
  | .receiver => onReceiver

/-- The frame at the head of the RX queue meets the engine: in a waiting phase it is popped and handled by that phase's
rule, in any other it stays pending in the queue (spec/41_lifecycle.md R160, spec/60_exceptions.md R222, R227). -/
def receive (f : Frame) (src : Addr) (s : State) : State :=
  match waitOf s.lifecycle s.phase with
  | none => s
  | some w => onFrame w (s.takeFrame f src)

/-- SYN: consumed by a server in LISTEN; elsewhere a frame without the ACK and FIN bits (spec/40_codec.md R129). -/
def execSyn (a : FrameArgs) (s : State) : Host.Outcome State Fault Refusal :=
  .next (receive (a.frame flagsSyn) a.src s)

/-- SYN-ACK: consumed by a client in SYN_SENT; elsewhere a frame with the SYN and ACK bits (spec/40_codec.md R130). -/
def execSynack (a : FrameArgs) (s : State) : Host.Outcome State Fault Refusal :=
  .next (receive (a.frame flagsSynack) a.src s)

/-- ACK, control or data: told apart only by the state of the engine that takes it (spec/40_codec.md R131). -/
def execAck (a : FrameArgs) (s : State) : Host.Outcome State Fault Refusal :=
  .next (receive (a.frame flagsAck) a.src s)

/-- FIN: ends the receiver's data phase; elsewhere a frame without the tested bits (spec/40_codec.md R132). -/
def execFin (a : FrameArgs) (s : State) : Host.Outcome State Fault Refusal :=
  .next (receive (a.frame flagsFin) a.src s)

/-- FIN-ACK: an ACK for the closing client, a FIN for the receiver (spec/40_codec.md R133). -/
def execFinack (a : FrameArgs) (s : State) : Host.Outcome State Fault Refusal :=
  .next (receive (a.frame flagsFinack) a.src s)

/-- DATA: consumed by the receiver; elsewhere a frame with no flag set (spec/40_codec.md R134). -/
def execData (a : FrameArgs) (s : State) : Host.Outcome State Fault Refusal :=
  .next (receive (a.frame flagsData) a.src s)

end Sys2Proof.Machine
end

