-- ==== Sys2Proof/Machine/Dispatch.lean ====
section
/-! DEFINITION. exec: one arm per instruction, each one call of that instruction's meaning. -/

namespace Sys2Proof.Machine

def exec (i : Instr) (s : State) : Host.Outcome State Fault Refusal :=
  match i with
  -- frame kinds (spec/40_codec.md R129 to R134)
  | .syn a => Sys2Proof.Machine.execSyn a s
  | .synack a => Sys2Proof.Machine.execSynack a s
  | .ack a => Sys2Proof.Machine.execAck a s
  | .fin a => Sys2Proof.Machine.execFin a s
  | .finack a => Sys2Proof.Machine.execFinack a s
  | .data a => Sys2Proof.Machine.execData a s
  -- host commands (spec/30_encoding.md R103, R104)
  | .cmdReserved => Sys2Proof.Machine.execCmdReserved s
  | .encode f => Sys2Proof.Machine.execEncode f s
  | .decode b => Sys2Proof.Machine.execDecode b s
  | .openConn peer cfgWindow => Sys2Proof.Machine.execOpenConn peer cfgWindow s
  | .accept => Sys2Proof.Machine.execAccept s
  | .sendAll total => Sys2Proof.Machine.execSendAll total s
  | .recvAll => Sys2Proof.Machine.execRecvAll s
  | .close => Sys2Proof.Machine.execClose s

end Sys2Proof.Machine
end

