-- ==== Sys2Proof/Machine/Events.lean ====
section
/-! DEFINITION. The events that are no instruction (spec/60_exceptions.md R222 to R226): the timer's expiry, the socket's
failure, the reset input, the test seam, the host's writes of chunk memory, and the engine's internal steps. -/

namespace Sys2Proof.Machine

/-- Timer expiry, taken only when TIMER_ARMED = 1 and clearing it (spec/60_exceptions.md R223): fatal in the client's
handshake (spec/41_lifecycle.md R143), Go-Back-N in WAIT (spec/42_sender_arq.md R177), the end of the close
(spec/41_lifecycle.md R154). With TIMER_ARMED = 0 there is no such event and the move has no effect
(notes/assumptions/14.md). -/
def timerExpiry (s : State) : State :=
  if s.timerArmed then
    match s.lifecycle, s.phase with
    | .synSent, .hsWait => raiseFatal .handshakeTimeout s
    | _, .wait => goBackN s
    | .finSent, .finWait => teardownExpiry s
    | _, _ => s.timerDisarm
  else s

/-- Socket failure: fatal while a command is in progress, without effect otherwise (spec/60_exceptions.md R220). -/
def socketFailure (s : State) : State :=
  if s.phase = .none then s else raiseFatal .socketError s

/-- The reset input: every register and the RX queue at their reset values; the outputs are not erased and the inputs
of the step relation are not the engine's to change (spec/70_reset_and_hazards.md R250). -/
def resetInput (s : State) : State :=
  { State.resetWith s.params with out := s.out, chunks := s.chunks, now := s.now, moves := s.moves }

/-- The test seam: it writes DROP_SEQ and DROP_ARMED only while STATE = IDLE and PHASE = NONE (spec/10_state.md R39);
otherwise nothing is written (notes/assumptions/15.md). -/
def seamWrite (seq : U16) (armed : Bool) (s : State) : State :=
  if s.lifecycle = .idle ∧ s.phase = .none then { s with dropSeq := seq, dropArmed := armed } else s

/-- Is SEND_ALL in progress? -/
def sending (p : Phase) : Bool := p == .fill || p == .wait || p == .retx

/-- The host stores chunk `k`: refused while SEND_ALL is in progress (spec/93_implementation_defined.md U18,
notes/assumptions/12.md), a fault where there is no such chunk (spec/20_memory.md R60). -/
def hostStoreChunk (k : Nat) (b : Bytes) (s : State) : Host.Outcome State Fault Refusal :=
  if sending s.phase then .refused .chunkMemoryInUse
  else if 1 ≤ k ∧ k ≤ Config.maxChunks then .next { s with chunks := chunkWrite s.chunks k b }
  else .fault .noSuchChunk

/-- The host fills chunk memory with `data`, cut at 992-byte boundaries (spec/20_memory.md R63), under the same
conditions. -/
def hostFillChunks (data : Bytes) (s : State) : Host.Outcome State Fault Refusal :=
  if sending s.phase then .refused .chunkMemoryInUse
  else if (cutData data).length ≤ Config.maxChunks then .next { s with chunks := numberFrom 1 (cutData data) }
  else .fault .noSuchChunk

/-- The engine's own step in a phase that waits for no frame: FILL, RETX and FIN_RCVD always have one; otherwise no
step is enabled and the engine stays as it is (spec/60_exceptions.md R227, spec/41_lifecycle.md R157;
notes/assumptions/6.md). -/
def internalStep (s : State) : State :=
  match s.lifecycle, s.phase with
  | _, .fill => fillStep s
  | _, .retx => retxStep s
  | .finRcvd, .recv => sendFinack s
  | _, _ => s

end Sys2Proof.Machine
end

