-- ==== Sys2Proof/Machine/Fetch.lean ====
section
/-! DEFINITION. What the next step is: which agent moves, and which instruction, if any, stands on the command port or at
the head of the RX queue. There is no program counter and no instruction memory (spec/10_state.md R23). -/

namespace Sys2Proof.Machine

/-- What a step finds: an instruction with the state it runs in, or an event already carried out. -/
inductive Fetched where
  | instr (i : Instr) (s : State)
  | done (o : Host.Outcome State Fault Refusal)

/-- The engine's own step (spec/10_state.md R24). In a waiting phase it takes the head of the RX queue: an instruction;
or a frame of kind OTHER, handled by the same rules (spec/30_encoding.md R96); or a datagram shorter than 8 bytes, which
is fatal whatever the phase (spec/60_exceptions.md R213, R228). A wait with an empty queue has no enabled step
(spec/20_memory.md R70; notes/assumptions/6.md). -/
def engineFetch (s : State) : Fetched :=
  match waitOf s.lifecycle s.phase with
  | none => .done (.next (internalStep s))
  | some _ =>
    match s.rxQueue with
    | [] => .done (.next s)
    | d :: _ =>
      match decode (.datagram d.src d.bytes) with
      | .ok i => .instr i s
      | .error .shortHeader => .done (.next (raiseFatal .shortHeader s.rxPop))
      | .error (.otherKind f) => .done (.next (receive f d.src s))

/-- The effect of one move on the state it has left the list of. -/
def moveFetch (m : Move) (s : State) : Fetched :=
  match m with
  | .engine => engineFetch s
  | .command code args => .instr (decodeCommand code args) s
  | .deliver src b => .done (.next (s.deliver src b))
  | .expire => .done (.next (timerExpiry s))
  | .socketFail => .done (.next (socketFailure s))
  | .reset => .done (.next (resetInput s))
  | .seam seq armed => .done (.next (seamWrite seq armed s))
  | .storeChunk k b => .done (hostStoreChunk k b s)
  | .fillChunks data => .done (hostFillChunks data s)
  | .clock t => .done (.next { s with now := t })

/-- The next step: the first move of the list, which leaves it; with no move listed, the engine's own step. -/
def fetch (s : State) : Fetched :=
  match s.moves with
  | [] => engineFetch s
  | m :: ms => moveFetch m { s with moves := ms }

/-- The state in which the port word `r` is what the next step runs. A command becomes the host's next move. A datagram
becomes the head of the RX queue, the engine moves next, and where it is in no waiting phase it is put where ACCEPT
leaves it after reset: the server in LISTEN (notes/assumptions/9.md). -/
def placeRaw (r : Raw) (s : State) : State :=
  match r with
  | .command code args => { s with moves := .command code args :: s.moves }
  | .datagram src b =>
    let s1 := { s with rxQueue := ⟨src, b⟩ :: s.rxQueue, moves := .engine :: s.moves }
    match waitOf s.lifecycle s.phase with
    | some _ => s1
    | none => { s1 with role := .server, lifecycle := .idle, phase := .listen }

end Sys2Proof.Machine
end

