-- ==== Sys2Proof/Machine/Step.lean ====
section
/-! DEFINITION. One step of the machine, and the placing of a table word where the next step runs it. -/

namespace Sys2Proof.Machine

/-- One step (spec/10_state.md R24): an instruction found is run by exec; an event is already carried out. -/
def step (s : State) : Host.Outcome State Fault Refusal :=
  match fetch s with
  | .instr i s' => exec i s'
  | .done o => o

/-- The state whose next step runs the instruction that the table word `w` of `nbits` bits stands for. -/
def State.withFetchWord (s : State) (nbits w : Nat) : State :=
  match tableRaw nbits w with
  | some r => placeRaw r s
  | none => s

end Sys2Proof.Machine
end

