-- ==== Sys2Proof/Safety.lean ====
section
/-! DEFINITION. What claims about the engine are stated in: the legal combinations of STATE, PHASE and ROLE, the
invariant of a Session, the transition table of STATE, the acceptance table of commands, the ways a run ends. -/

namespace Sys2Proof.Machine

/-- The combinations of STATE, PHASE and ROLE that a Session goes through (spec/10_state.md R21, R22, R25;
spec/41_lifecycle.md R158). -/
def legal (l : Lifecycle) (p : Phase) (r : Role) : Bool :=
  match l, p, r with
  | .idle, .none, .none => true
  | .idle, .listen, .server => true
  | .synSent, .hsWait, .client => true
  | .synRcvd, .hsWait, .server => true
  | .established, .none, .client => true
  | .established, .none, .server => true
  | .established, .fill, .client => true
  | .established, .wait, .client => true
  | .established, .retx, .client => true
  | .established, .recv, .server => true
  | .finRcvd, .recv, .server => true
  | .finSent, .finWait, .client => true
  | .closed, .none, .client => true
  | .closed, .none, .server => true
  | _, _, _ => false

/-- The phases in which TIMER_ARMED is 1 (spec/10_state.md R40). -/
def timedWait (l : Lifecycle) (p : Phase) : Bool :=
  (l == .synSent && p == .hsWait) || p == .wait || p == .finWait

/-- The sender's counters while SEND_ALL is in progress (spec/10_state.md R34, spec/42_sender_arq.md R182,
spec/10_state.md R45). -/
structure SenderInv (s : State) : Prop where
  base_pos : 1 ≤ s.base.toNat
  base_le_next : s.base.toNat ≤ s.nextSeq.toNat
  next_le_total : s.nextSeq.toNat ≤ s.total.toNat + 1
  total_le : s.total.toNat ≤ Config.maxChunks
  window : s.nextSeq.toNat ≤ s.base.toNat + s.negWindow.toNat
  some_window : 1 ≤ s.negWindow.toNat ∨ s.total.toNat = 0
  outstanding : s.phase = .wait ∨ s.phase = .retx → s.base.toNat < s.nextSeq.toNat
  rtx_ge : s.phase = .retx → s.base.toNat ≤ s.rtx.toNat
  rtx_le : s.phase = .retx → s.rtx.toNat ≤ s.nextSeq.toNat
  acked_bytes : s.bytes = BitVec.ofNat 32 (chunkBytes s.chunks 1 (s.base.toNat - 1))

/-- The addresses a move brings to the engine: a datagram's source, a command's address line. -/
def Move.addresses : Move → List Addr
  | .deliver src _ => [src]
  | .command _ args => [args.peer]
  | .engine => []
  | .expire => []
  | .socketFail => []
  | .reset => []
  | .seam _ _ => []
  | .storeChunk _ _ => []
  | .fillChunks _ => []
  | .clock _ => []

/-- The addresses an output shows: a datagram's destination, ACCEPT's result. -/
def Output.addresses : Output → List Addr
  | .tx dst _ => [dst]
  | .result (.okPeer a) => [a]
  | .result _ => []
  | .sink _ => []
  | .trace _ => []

/-- Every address that stands in a state. -/
def State.addresses (s : State) : List Addr :=
  s.peer :: s.rxfSrc :: s.txfDst :: (s.rxQueue.map Datagram.src ++ s.out.flatMap Output.addresses ++
    s.moves.flatMap Move.addresses)

/-- The invariant of a Session: what every step keeps. -/
structure State.Inv (s : State) : Prop where
  /-- The parameters are within the bounds of spec/00_scope.md R9. -/
  params : s.params.wf = true
  /-- Every address in the state is one of the type Addr (spec/00_scope.md R9). -/
  addresses : ∀ a ∈ s.addresses, s.params.isAddr a = true
  /-- STATE, PHASE and ROLE are one of the combinations a Session goes through. -/
  combination : legal s.lifecycle s.phase s.role = true
  /-- TIMER_ARMED is 1 exactly in the three bounded waits (spec/10_state.md R40). -/
  timer : s.timerArmed = timedWait s.lifecycle s.phase
  /-- ERR holds no error, or a fatal one in a closed Session (spec/10_state.md R26). -/
  err : s.err = .none ∨ (s.err.fatal = true ∧ s.lifecycle = .closed)
  /-- Chunk memory is in canonical form. -/
  chunks : Memory.wf s.chunks
  /-- Every queued datagram has at most RX_MAX bytes (spec/20_memory.md R67). -/
  queued_len : ∀ d ∈ s.rxQueue, d.bytes.length ≤ s.params.rxMax
  /-- At most RXQ_DEPTH datagrams are queued (spec/10_state.md R43). -/
  queue_len : ∀ n, s.params.rxqDepth = some n → s.rxQueue.length ≤ n
  /-- Only the client ever writes the window registers (spec/10_state.md R36, R37). -/
  no_window : s.role ≠ .client → s.peerWindow = 0 ∧ s.negWindow = 0
  /-- NEG_WINDOW is fixed for the transfer (spec/10_state.md R37). -/
  window : s.role = .client → s.lifecycle = .established ∨ s.lifecycle = .finSent →
    s.negWindow.toNat = min s.cfgWindow.toNat s.peerWindow.toNat
  /-- The sender's counters while SEND_ALL is in progress. -/
  sender : sending s.phase = true → SenderInv s
  /-- EXPECTED while RECV_ALL is in progress (spec/10_state.md R33). -/
  receiver : s.phase = .recv → 1 ≤ s.expected.toNat ∧ s.expected.toNat ≤ 65536

/-- The transitions of STATE (spec/41_lifecycle.md R158): no change, the arrows of the two chains, a fatal error from
any state but CLOSED and, where `byReset` holds, IDLE. -/
def stateMoves (byReset : Bool) (l l' : Lifecycle) : Bool :=
  match l, l' with
  | .idle, .synSent => true
  | .synSent, .established => true
  | .idle, .synRcvd => true
  | .synRcvd, .established => true
  | .established, .finSent => true
  | .established, .finRcvd => true
  | _, .closed => true
  | l, .idle => byReset || l == .idle
  | l, l' => l == l'

/-- When a command is accepted (the table of spec/60_exceptions.md R221); a frame kind is no command. -/
def accepted (i : Instr) (s : State) : Prop :=
  match i with
  | .encode _ => s.phase = .none
  | .decode _ => s.phase = .none
  | .openConn _ _ => s.phase = .none ∧ s.lifecycle = .idle ∧ s.role = .none
  | .accept => s.phase = .none ∧ s.lifecycle = .idle ∧ s.role = .none
  | .sendAll total =>
    s.phase = .none ∧ s.lifecycle = .established ∧ s.role = .client ∧ total ≤ 65535 ∧
      (1 ≤ s.negWindow.toNat ∨ total = 0)
  | .recvAll => s.phase = .none ∧ s.lifecycle = .established ∧ s.role = .server
  | .close => s.phase = .none ∧ s.lifecycle = .established ∧ s.role = .client
  | .cmdReserved => False
  | .syn _ => False
  | .synack _ => False
  | .ack _ => False
  | .fin _ => False
  | .finack _ => False
  | .data _ => False

/-- Is the instruction a host command? -/
def isCommand : Instr → Bool
  | .syn _ => false
  | .synack _ => false
  | .ack _ => false
  | .fin _ => false
  | .finack _ => false
  | .data _ => false
  | .cmdReserved => true
  | .encode _ => true
  | .decode _ => true
  | .openConn _ _ => true
  | .accept => true
  | .sendAll _ => true
  | .recvAll => true
  | .close => true

/-- The moves that are the engine's own step: none listed, or `engine` first. -/
def enginesTurn (s : State) : Prop := s.moves = [] ∨ ∃ ms, s.moves = .engine :: ms

/-- A step in which the host asserts reset. -/
def resetsNext (s : State) : Prop := ∃ ms, s.moves = .reset :: ms

/-- The run of a Session is over (spec/70_reset_and_hazards.md R262). -/
def sessionOver (s : State) : Prop := s.lifecycle = .closed ∧ s.phase = .none

/-- The run of a Session is over and ended well (spec/70_reset_and_hazards.md R262). -/
def endedWell (s : State) : Prop := sessionOver s ∧ s.err = .none

/-- The sequence numbers of the datagrams on the TX port, in order (read off their first two bytes). -/
def txSeqs (o : List Output) : List Nat :=
  (txHistory o).filterMap fun x => (codecDecode x.2).map fun f => f.seq.toNat

/-- The frames that the receiver's acceptance test lets through, taken in order from a stream, when EXPECTED starts at
`e` (spec/43_receiver.md R201, written without the engine). -/
def inOrder : Nat → List Frame → List Frame
  | _, [] => []
  | e, f :: fs => if f.seq.toNat = e then f :: inOrder (e + 1) fs else inOrder e fs

end Sys2Proof.Machine
end

