-- ==== Sys2Proof/Certificates/Slice0/Obligations.lean ====
section
/-! DEFINITION. The statements about the engine, from the numbered rules of spec/. A next state is written out as a record
update of the state before, so that an equation is also the frame: whatever it does not name is unchanged. What every
statement shares is the model's form of the machine: the agents' moves are a list (notes/assumptions/5.md), a frame
instruction is the frame at the head of the RX queue (8.md), RXF and TXF are kept as registers (22.md). -/

open Sys2Proof Sys2Proof.Machine

/-! ## The codec and the encodings -/

/-- R125, the round-trip law. -/
def Obligations.CodecRoundTrip : Prop :=
  ∀ f : Frame, f.payload.length ≤ 992 → ∃ b, codecEncode f = some b ∧ codecDecode b = some f

/-- R120: the encoder's layout, its one failure, its length law. -/
def Obligations.EncodeLayoutAndLength : Prop :=
  ∀ f : Frame,
    (codecEncode f = none ↔ 992 < f.payload.length) ∧
    ∀ b, codecEncode f = some b →
      b = be16 f.seq ++ be16 f.ack ++ be16 f.flags ++ be16 f.window ++ f.payload ∧
      b.length = 8 + f.payload.length ∧ 8 ≤ b.length ∧ b.length ≤ 1000

/-- R123: the decoder fails exactly below 8 bytes and assembles the fields from the
byte pairs. -/
def Obligations.DecodeFieldsAndFailure : Prop :=
  (∀ b : Bytes, codecDecode b = none ↔ b.length < 8) ∧
  ∀ (b0 b1 b2 b3 b4 b5 b6 b7 : Byte) (p : Bytes),
    ∃ f, codecDecode (b0 :: b1 :: b2 :: b3 :: b4 :: b5 :: b6 :: b7 :: p) = some f ∧
      f.seq.toNat = 256 * b0.toNat + b1.toNat ∧ f.ack.toNat = 256 * b2.toNat + b3.toNat ∧
      f.flags.toNat = 256 * b4.toNat + b5.toNat ∧ f.window.toNat = 256 * b6.toNat + b7.toNat ∧ f.payload = p

/-- R135 (which the spec marks as derived), the inverse law, and that `decode` is a bijection from the byte strings of 8 to 1000 bytes onto the frames
with payloads of 0 to 992 bytes. -/
def Obligations.EncodeInvertsDecode : Prop :=
  (∀ b : Bytes, 8 ≤ b.length → b.length ≤ 1000 →
    ∃ f, codecDecode b = some f ∧ codecEncode f = some b ∧ f.payload.length ≤ 992) ∧
  (∀ b : Bytes, 1000 < b.length → ∃ f, codecDecode b = some f ∧ codecEncode f = none) ∧
  (∀ f : Frame, f.payload.length ≤ 992 →
    ∃ b, 8 ≤ b.length ∧ b.length ≤ 1000 ∧ codecDecode b = some f ∧ ∀ b', codecDecode b' = some f → b' = b)

/-- Decoding the words of an instruction gives it back, for every instruction of the opcode table and every value of its
operands: frames of any payload length too. -/
def Obligations.DecodeOfEncodeIsIdentity : Prop :=
  ∀ i : Instr, i.inTable = true → Sys2Proof.decode (Sys2Proof.encode i) = .ok i

/-- Whatever the decoder reads is in the table, and its words are the ones that were read: no two datagrams decode to
one instruction. -/
def Obligations.EncodeOfDecodeIsIdentity : Prop :=
  ∀ (src : Addr) (b : Bytes) (i : Instr), Sys2Proof.decode (.datagram src b) = .ok i →
    i.inTable = true ∧ Sys2Proof.encode i = .datagram src b

/-- R93 (which the spec marks as derived), R95: the header word and its fields, and the row of spec/opcode_table.json that selects each kind. -/
def Obligations.HeaderWordSelectsKindRow : Prop :=
  ∀ f : Frame,
    f.headerWord.toNat =
      f.seq.toNat * 2 ^ 48 + f.ack.toNat * 2 ^ 32 + f.flags.toNat * 2 ^ 16 + f.window.toNat ∧
    f.headerWord.getLsbD 16 = finBit f ∧ f.headerWord.getLsbD 17 = synBit f ∧
    f.headerWord.getLsbD 18 = rstBit f ∧ f.headerWord.getLsbD 19 = ackBit f ∧
    f.headerWord.extractLsb' 48 16 = f.seq ∧ f.headerWord.extractLsb' 32 16 = f.ack ∧
    f.headerWord.extractLsb' 16 16 = f.flags ∧ f.headerWord.extractLsb' 0 16 = f.window ∧
    (f.kind = .syn ↔ f.headerWord &&& 0x00000000FFFF0000#64 = 0x0000000000020000#64) ∧
    (f.kind = .synack ↔ f.headerWord &&& 0x00000000FFFF0000#64 = 0x00000000000A0000#64) ∧
    (f.kind = .ack ↔ f.headerWord &&& 0x00000000FFFF0000#64 = 0x0000000000080000#64) ∧
    (f.kind = .fin ↔ f.headerWord &&& 0x00000000FFFF0000#64 = 0x0000000000010000#64) ∧
    (f.kind = .finack ↔ f.headerWord &&& 0x00000000FFFF0000#64 = 0x0000000000090000#64) ∧
    (f.kind = .data ↔ f.headerWord &&& 0x00000000FFFF0000#64 = 0x0000000000000000#64 ∧ f.seq ≠ 0)

/-- A few words written out from the spec's encodings decode to the instructions they stand for (R95, R103). That a table
word stands for a datagram from address 0, or for a command with argument lines of zeros (notes/assumptions/9.md), in a
word of 8 bits (10.md), is the model's. -/
def Obligations.SampleWordsDecode : Prop :=
  decodeTableWord 64 0x0000000000020000 = some (.syn ⟨0, 0, 0, 0, []⟩) ∧
  decodeTableWord 64 0x00000001000A000F = some (.synack ⟨0, 0, 1, 15, []⟩) ∧
  decodeTableWord 64 0x000000050008000F = some (.ack ⟨0, 0, 5, 15, []⟩) ∧
  decodeTableWord 64 0x0000000000010000 = some (.fin ⟨0, 0, 0, 0, []⟩) ∧
  decodeTableWord 64 0x0000000000090000 = some (.finack ⟨0, 0, 0, 0, []⟩) ∧
  decodeTableWord 64 0x0001000000000003 = some (.data ⟨0, 1, 0, 3, []⟩) ∧
  decodeTableWord 64 0x0000000000000000 = none ∧
  decodeTableWord 64 0x0000000000030000 = none ∧
  decodeTableWord 8 0 = some .cmdReserved ∧ decodeTableWord 8 4 = some .accept ∧
  decodeTableWord 8 7 = some .close ∧
  Sys2Proof.decode (.datagram 9 [0x00, 0x01, 0x00, 0x00, 0x00, 0x00, 0x00, 0x03, 0x41, 0x42]) =
    .ok (.data ⟨9, 1, 0, 3, [0x41, 0x42]⟩) ∧
  Sys2Proof.decode (.datagram 9 [0x00, 0x00, 0x00, 0x00, 0x00, 0x01, 0x00]) = .error .shortHeader

/-! ## A step runs the decoded instruction -/

/-- A command at the head of the moves is run by exec in the state without that move; the head of the RX queue that
decodes to an instruction is run by exec in a waiting phase, on the engine's turn. -/
def Obligations.StepRunsDecodedInstruction : Prop :=
  (∀ (s : State) (code : BitVec 3) (args : CmdArgs) (ms : List Move) (i : Instr),
    s.moves = .command code args :: ms → Sys2Proof.decode (.command code args) = .ok i →
      step s = exec i { s with moves := ms }) ∧
  (∀ (s : State) (d : Datagram) (q : List Datagram) (i : Instr),
    enginesTurn s → waitOf s.lifecycle s.phase ≠ none → s.rxQueue = d :: q →
      Sys2Proof.decode (.datagram d.src d.bytes) = .ok i → step s = exec i { s with moves := s.moves.tail })

/-- Every instruction answers a next state in every state: none stops the machine. -/
def Obligations.EveryInstructionAnswersNext : Prop :=
  ∀ (i : Instr) (s : State), ∃ t, exec i s = .next t

/-! ## Host commands -/

/-- R127: ENCODE posts the bytes or InvalidPayload, and changes no register. -/
def Obligations.EncodeCommandPostsBytes : Prop :=
  ∀ (f : Frame) (s : State),
    (s.phase = .none → f.payload.length ≤ 992 →
      exec (.encode f) s = .next { s with out := s.out ++ [.result (.okBytes
        (be16 f.seq ++ be16 f.ack ++ be16 f.flags ++ be16 f.window ++ f.payload))] }) ∧
    (s.phase = .none → 992 < f.payload.length →
      exec (.encode f) s = .next { s with out := s.out ++ [.result (.err .invalidPayload)] }) ∧
    (s.phase ≠ .none → exec (.encode f) s = .next { s with out := s.out ++ [.result (.err .cmdRefused)] })

/-- R128: DECODE posts the frame or ShortHeader, writes no register and leaves the RX queue alone. -/
def Obligations.DecodeCommandPostsFrame : Prop :=
  ∀ (b : Bytes) (s : State),
    (∀ f, s.phase = .none → codecDecode b = some f →
      exec (.decode b) s = .next { s with out := s.out ++ [.result (.okFrame f)] }) ∧
    (s.phase = .none → b.length < 8 →
      exec (.decode b) s = .next { s with out := s.out ++ [.result (.err .shortHeader)] }) ∧
    (s.phase ≠ .none → exec (.decode b) s = .next { s with out := s.out ++ [.result (.err .cmdRefused)] })

/-- R221, R104: exactly the commands that the acceptance table does not accept are refused, and a refusal changes no
register; code 0 is never accepted. -/
def Obligations.CommandsRefusedOutsideTable : Prop :=
  (∀ (i : Instr) (s : State), isCommand i = true →
    (¬ accepted i s ↔ exec i s = .next { s with out := s.out ++ [.result (.err .cmdRefused)] })) ∧
  ∀ s : State, exec .cmdReserved s = .next { s with out := s.out ++ [.result (.err .cmdRefused)] }

/-- R141: OPEN. -/
def Obligations.OpenSendsSyn : Prop :=
  ∀ (peer : Addr) (w : U16) (s : State),
    (s.phase = .none → s.lifecycle = .idle → s.role = .none →
      exec (.openConn peer w) s = .next { s with
        role := .client, peer := peer, cfgWindow := w,
        txf := ⟨0, 0, 0x0002, 0, []⟩, txfDst := peer,
        out := s.out ++ [.tx peer [0x00, 0x00, 0x00, 0x00, 0x00, 0x02, 0x00, 0x00]],
        lifecycle := .synSent, phase := .hsWait, timerArmed := true }) ∧
    (s.phase ≠ .none ∨ s.lifecycle ≠ .idle ∨ s.role ≠ .none →
      exec (.openConn peer w) s = .next { s with out := s.out ++ [.result (.err .cmdRefused)] })

/-- R146: ACCEPT; the engine then waits without bound. That a blocked step answers the same state is the model's form of
having no enabled step (notes/assumptions/6.md). -/
def Obligations.AcceptListens : Prop :=
  ∀ s : State,
    (s.phase = .none → s.lifecycle = .idle → s.role = .none →
      exec .accept s = .next { s with role := .server, phase := .listen } ∧
      ∀ t, exec .accept s = .next t → t.rxQueue = [] → t.moves = [] → step t = .next t) ∧
    (s.phase ≠ .none ∨ s.lifecycle ≠ .idle ∨ s.role ≠ .none →
      exec .accept s = .next { s with out := s.out ++ [.result (.err .cmdRefused)] })

/-- R170: SEND_ALL starts a transfer and transmits nothing. -/
def Obligations.SendAllStarts : Prop :=
  ∀ (total : Nat) (s : State),
    (s.phase = .none → s.lifecycle = .established → s.role = .client → total ≤ 65535 →
      1 ≤ s.negWindow.toNat ∨ total = 0 →
      exec (.sendAll total) s = .next { s with
        total := BitVec.ofNat 17 total, base := 1, nextSeq := 1, bytes := 0, t0 := s.now, phase := .fill }) ∧
    (s.phase ≠ .none ∨ s.lifecycle ≠ .established ∨ s.role ≠ .client ∨ 65535 < total ∨ (s.negWindow = 0 ∧ total ≠ 0) →
      exec (.sendAll total) s = .next { s with out := s.out ++ [.result (.err .cmdRefused)] })

/-- R190: RECV_ALL starts the receiver and transmits nothing. -/
def Obligations.RecvAllStarts : Prop :=
  ∀ s : State,
    (s.phase = .none → s.lifecycle = .established → s.role = .server →
      exec .recvAll s = .next { s with expected := 1, bytes := 0, t0 := s.now, phase := .recv }) ∧
    (s.phase ≠ .none ∨ s.lifecycle ≠ .established ∨ s.role ≠ .server →
      exec .recvAll s = .next { s with out := s.out ++ [.result (.err .cmdRefused)] })

/-- R151: CLOSE. -/
def Obligations.CloseSendsFin : Prop :=
  ∀ s : State,
    (s.phase = .none → s.lifecycle = .established → s.role = .client →
      exec .close s = .next { s with
        txf := ⟨0, 0, 0x0001, 0, []⟩, txfDst := s.peer,
        out := s.out ++ [.tx s.peer [0x00, 0x00, 0x00, 0x00, 0x00, 0x01, 0x00, 0x00]],
        lifecycle := .finSent, phase := .finWait, timerArmed := true }) ∧
    (s.phase ≠ .none ∨ s.lifecycle ≠ .established ∨ s.role ≠ .client →
      exec .close s = .next { s with out := s.out ++ [.result (.err .cmdRefused)] })

/-! ## Frames in the handshake -/

/-- R147: SYN at the listening server, as an instruction and as any datagram with the SYN bit. -/
def Obligations.ServerAnswersSyn : Prop :=
  (∀ (a : FrameArgs) (s : State), s.lifecycle = .idle → s.phase = .listen →
    exec (.syn a) s = .next { s with
      rxQueue := s.rxQueue.tail, rxf := ⟨a.seq, a.ack, 0x0002, a.window, a.payload⟩, rxfSrc := a.src,
      peer := a.src, txf := ⟨0, a.seq + 1, 0x000A, s.params.advWindow, []⟩, txfDst := a.src,
      out := s.out ++ [.tx a.src (Frame.bytes ⟨0, a.seq + 1, 0x000A, s.params.advWindow, []⟩)],
      lifecycle := .synRcvd, phase := .hsWait }) ∧
  (∀ (s : State) (d : Datagram) (q : List Datagram) (f : Frame), enginesTurn s →
    s.lifecycle = .idle → s.phase = .listen → s.rxQueue = d :: q → codecDecode d.bytes = some f →
    f.flags.getLsbD 1 = true →
    step s = .next { s with
      moves := s.moves.tail, rxQueue := q, rxf := f, rxfSrc := d.src,
      peer := d.src, txf := ⟨0, f.seq + 1, 0x000A, s.params.advWindow, []⟩, txfDst := d.src,
      out := s.out ++ [.tx d.src (Frame.bytes ⟨0, f.seq + 1, 0x000A, s.params.advWindow, []⟩)],
      lifecycle := .synRcvd, phase := .hsWait })

/-- R142: SYN-ACK at the waiting client, as an instruction and as any datagram with the SYN and ACK bits; the
negotiated window is the minimum, 0 included. -/
def Obligations.ClientEstablishesOnSynack : Prop :=
  (∀ (a : FrameArgs) (s : State) (w : U16), s.lifecycle = .synSent → s.phase = .hsWait →
    w.toNat = min s.cfgWindow.toNat a.window.toNat →
    exec (.synack a) s = .next { s with
      rxQueue := s.rxQueue.tail, rxf := ⟨a.seq, a.ack, 0x000A, a.window, a.payload⟩, rxfSrc := a.src,
      timerArmed := false, peerWindow := a.window, negWindow := w,
      txf := ⟨0, a.seq + 1, 0x0008, 0, []⟩, txfDst := s.peer,
      out := s.out ++ [.tx s.peer (Frame.bytes ⟨0, a.seq + 1, 0x0008, 0, []⟩), .result (.okWindow w)],
      lifecycle := .established, phase := .none }) ∧
  (∀ (s : State) (d : Datagram) (q : List Datagram) (f : Frame) (w : U16), enginesTurn s →
    s.lifecycle = .synSent → s.phase = .hsWait → s.rxQueue = d :: q → codecDecode d.bytes = some f →
    f.flags.getLsbD 1 = true → f.flags.getLsbD 3 = true → w.toNat = min s.cfgWindow.toNat f.window.toNat →
    step s = .next { s with
      moves := s.moves.tail, rxQueue := q, rxf := f, rxfSrc := d.src,
      timerArmed := false, peerWindow := f.window, negWindow := w,
      txf := ⟨0, f.seq + 1, 0x0008, 0, []⟩, txfDst := s.peer,
      out := s.out ++ [.tx s.peer (Frame.bytes ⟨0, f.seq + 1, 0x0008, 0, []⟩), .result (.okWindow w)],
      lifecycle := .established, phase := .none })

/-- R149: the third handshake frame at the server, as an instruction and as any datagram with the ACK bit. -/
def Obligations.ServerEstablishesOnAck : Prop :=
  (∀ (a : FrameArgs) (s : State), s.lifecycle = .synRcvd → s.phase = .hsWait →
    exec (.ack a) s = .next { s with
      rxQueue := s.rxQueue.tail, rxf := ⟨a.seq, a.ack, 0x0008, a.window, a.payload⟩, rxfSrc := a.src,
      peer := a.src, lifecycle := .established, phase := .none,
      out := s.out ++ [.result (.okPeer a.src)] }) ∧
  (∀ (s : State) (d : Datagram) (q : List Datagram) (f : Frame), enginesTurn s →
    s.lifecycle = .synRcvd → s.phase = .hsWait → s.rxQueue = d :: q → codecDecode d.bytes = some f →
    f.flags.getLsbD 3 = true →
    step s = .next { s with
      moves := s.moves.tail, rxQueue := q, rxf := f, rxfSrc := d.src,
      peer := d.src, lifecycle := .established, phase := .none, out := s.out ++ [.result (.okPeer d.src)] })

/-- R144, R148, R150, R216: a handshake frame without the required bits is fatal; the frame stands in RXF, nothing is
transmitted. -/
def Obligations.WrongHandshakeFrameIsFatal : Prop :=
  ∀ (s : State) (d : Datagram) (q : List Datagram) (f : Frame), enginesTurn s →
    s.rxQueue = d :: q → codecDecode d.bytes = some f →
    (s.lifecycle = .synSent ∧ s.phase = .hsWait ∧ (f.flags.getLsbD 1 = false ∨ f.flags.getLsbD 3 = false)) ∨
      (s.lifecycle = .idle ∧ s.phase = .listen ∧ f.flags.getLsbD 1 = false) ∨
      (s.lifecycle = .synRcvd ∧ s.phase = .hsWait ∧ f.flags.getLsbD 3 = false) →
    step s = .next { s with
      moves := s.moves.tail, rxQueue := q, rxf := f, rxfSrc := d.src,
      err := .handshakeProtocolError, timerArmed := false, lifecycle := .closed, phase := .none,
      out := s.out ++ [.result (.err .handshakeProtocolError)] }

/-! ## Frames in the close -/

/-- R152: ACK and FIN-ACK close the waiting client, as does any datagram with the ACK bit. -/
def Obligations.ClientClosesOnAck : Prop :=
  (∀ (a : FrameArgs) (s : State), s.lifecycle = .finSent → s.phase = .finWait →
    exec (.ack a) s = .next { s with
      rxQueue := s.rxQueue.tail, rxf := ⟨a.seq, a.ack, 0x0008, a.window, a.payload⟩, rxfSrc := a.src,
      timerArmed := false, lifecycle := .closed, phase := .none, out := s.out ++ [.result .okClosed] } ∧
    exec (.finack a) s = .next { s with
      rxQueue := s.rxQueue.tail, rxf := ⟨a.seq, a.ack, 0x0009, a.window, a.payload⟩, rxfSrc := a.src,
      timerArmed := false, lifecycle := .closed, phase := .none, out := s.out ++ [.result .okClosed] }) ∧
  (∀ (s : State) (d : Datagram) (q : List Datagram) (f : Frame), enginesTurn s →
    s.lifecycle = .finSent → s.phase = .finWait → s.rxQueue = d :: q → codecDecode d.bytes = some f →
    f.flags.getLsbD 3 = true →
    step s = .next { s with
      moves := s.moves.tail, rxQueue := q, rxf := f, rxfSrc := d.src,
      timerArmed := false, lifecycle := .closed, phase := .none, out := s.out ++ [.result .okClosed] })

/-- R153, R176: a frame without the ACK bit in the client's close or the sender's wait is discarded; only RXF changes
and the timer stays as it is. -/
def Obligations.FrameWithoutAckDiscarded : Prop :=
  ∀ (s : State) (d : Datagram) (q : List Datagram) (f : Frame), enginesTurn s →
    (s.lifecycle = .finSent ∧ s.phase = .finWait) ∨ (s.lifecycle = .established ∧ s.phase = .wait) →
    s.rxQueue = d :: q → codecDecode d.bytes = some f → f.flags.getLsbD 3 = false →
    step s = .next { s with moves := s.moves.tail, rxQueue := q, rxf := f, rxfSrc := d.src }

/-- R155, R156: a FIN takes the server to FIN_RCVD, and the very next step, the engine's own, sends the FIN-ACK and ends
the command. -/
def Obligations.FinackEndsReceiver : Prop :=
  ∀ s : State, enginesTurn s → s.lifecycle = .finRcvd → s.phase = .recv →
    step s = .next { s with
      moves := s.moves.tail, txf := ⟨0, 0, 0x0009, 0, []⟩, txfDst := s.peer,
      out := s.out ++ [.tx s.peer [0x00, 0x00, 0x00, 0x00, 0x00, 0x09, 0x00, 0x00],
        .result (.okStats ⟨s.bytes, s.params.minus s.now s.t0⟩)],
      lifecycle := .closed, phase := .none, elapsed := s.params.minus s.now s.t0 }

/-- R97: in each of the six waits the masked flags of the frame alone decide which of the two rules of the table's row
is taken, shown by where STATE, PHASE and ERR go. -/
def Obligations.ReceiveTestTable : Prop :=
  ∀ (s : State) (d : Datagram) (q : List Datagram) (f : Frame), enginesTurn s → s.rxQueue = d :: q →
    codecDecode d.bytes = some f → ∃ t, step s = .next t ∧
    (s.lifecycle = .synSent → s.phase = .hsWait →
      (f.flags &&& 0x000A = 0x000A → t.lifecycle = .established ∧ t.err = s.err) ∧
      (f.flags &&& 0x000A ≠ 0x000A → t.lifecycle = .closed ∧ t.err = .handshakeProtocolError)) ∧
    (s.lifecycle = .idle → s.phase = .listen →
      (f.flags &&& 0x0002 = 0x0002 → t.lifecycle = .synRcvd ∧ t.err = s.err) ∧
      (f.flags &&& 0x0002 ≠ 0x0002 → t.lifecycle = .closed ∧ t.err = .handshakeProtocolError)) ∧
    (s.lifecycle = .synRcvd → s.phase = .hsWait →
      (f.flags &&& 0x0008 = 0x0008 → t.lifecycle = .established ∧ t.err = s.err) ∧
      (f.flags &&& 0x0008 ≠ 0x0008 → t.lifecycle = .closed ∧ t.err = .handshakeProtocolError)) ∧
    (s.lifecycle = .established → s.phase = .wait →
      (f.flags &&& 0x0008 = 0x0008 → t.phase = .fill) ∧ (f.flags &&& 0x0008 ≠ 0x0008 → t.phase = .wait)) ∧
    (s.lifecycle = .finSent → s.phase = .finWait →
      (f.flags &&& 0x0008 = 0x0008 → t.lifecycle = .closed) ∧ (f.flags &&& 0x0008 ≠ 0x0008 → t.lifecycle = .finSent)) ∧
    (s.lifecycle = .established → s.phase = .recv →
      (f.flags &&& 0x0001 = 0x0001 → t.lifecycle = .finRcvd) ∧
      (f.flags &&& 0x0001 ≠ 0x0001 → t.lifecycle = .established ∧ t.phase = .recv))

/-! ## The sender -/

/-- R171 (which the spec marks as derived): the three steps of FILL, tested in this order. -/
def Obligations.FillDispatch : Prop :=
  ∀ s : State, enginesTurn s → s.phase = .fill →
    (s.total.toNat < s.base.toNat →
      step s = .next { s with
        moves := s.moves.tail, elapsed := s.params.minus s.now s.t0, phase := .none,
        out := s.out ++ [.result (.okStats ⟨s.bytes, s.params.minus s.now s.t0⟩)] }) ∧
    (s.base.toNat ≤ s.total.toNat → s.nextSeq.toNat < s.base.toNat + s.negWindow.toNat →
      s.nextSeq.toNat ≤ s.total.toNat → (chunkRead s.chunks s.nextSeq.toNat).length ≤ 992 →
      step s = .next { s with
        moves := s.moves.tail,
        txf := ⟨s.nextSeq.setWidth 16, 0, 0x0000, s.negWindow, chunkRead s.chunks s.nextSeq.toNat⟩, txfDst := s.peer,
        out := s.out ++ [.tx s.peer
            (Frame.bytes ⟨s.nextSeq.setWidth 16, 0, 0x0000, s.negWindow, chunkRead s.chunks s.nextSeq.toNat⟩),
          .trace (.sent (s.nextSeq.setWidth 16) s.base (s.nextSeq + 1))],
        nextSeq := s.nextSeq + 1 }) ∧
    (s.base.toNat ≤ s.total.toNat →
      s.base.toNat + s.negWindow.toNat ≤ s.nextSeq.toNat ∨ s.total.toNat < s.nextSeq.toNat →
      step s = .next { s with moves := s.moves.tail, phase := .wait, timerArmed := true })

/-- R174, R175: an ACK in the sender's wait ends the wait; BASE moves to A + 1 exactly when BASE ≤ A < NEXT, and BYTES
counts the chunks acknowledged; a stale or premature value has no further effect. Any datagram with the ACK bit counts
as an ACK. BYTES wraps on its 32 bits in states that no run reaches (notes/assumptions/13.md). -/
def Obligations.CumulativeAck : Prop :=
  (∀ (a : FrameArgs) (s : State), s.lifecycle = .established → s.phase = .wait →
    (s.base.toNat ≤ a.ack.toNat → a.ack.toNat < s.nextSeq.toNat →
      exec (.ack a) s = .next { s with
        rxQueue := s.rxQueue.tail, rxf := ⟨a.seq, a.ack, 0x0008, a.window, a.payload⟩, rxfSrc := a.src,
        timerArmed := false, bytes := s.bytes + BitVec.ofNat 32 (chunkBytes s.chunks s.base.toNat a.ack.toNat),
        base := BitVec.ofNat 17 (a.ack.toNat + 1),
        out := s.out ++ [.trace (.ackReceived a.ack)], phase := .fill }) ∧
    (a.ack.toNat < s.base.toNat ∨ s.nextSeq.toNat ≤ a.ack.toNat →
      exec (.ack a) s = .next { s with
        rxQueue := s.rxQueue.tail, rxf := ⟨a.seq, a.ack, 0x0008, a.window, a.payload⟩, rxfSrc := a.src,
        timerArmed := false, out := s.out ++ [.trace (.ackReceived a.ack)], phase := .fill })) ∧
  (∀ (s : State) (d : Datagram) (q : List Datagram) (f : Frame), enginesTurn s →
    s.lifecycle = .established → s.phase = .wait → s.rxQueue = d :: q → codecDecode d.bytes = some f →
    f.flags.getLsbD 3 = true →
    (s.base.toNat ≤ f.ack.toNat → f.ack.toNat < s.nextSeq.toNat →
      step s = .next { s with
        moves := s.moves.tail, rxQueue := q, rxf := f, rxfSrc := d.src,
        timerArmed := false, bytes := s.bytes + BitVec.ofNat 32 (chunkBytes s.chunks s.base.toNat f.ack.toNat),
        base := BitVec.ofNat 17 (f.ack.toNat + 1),
        out := s.out ++ [.trace (.ackReceived f.ack)], phase := .fill }) ∧
    (f.ack.toNat < s.base.toNat ∨ s.nextSeq.toNat ≤ f.ack.toNat →
      step s = .next { s with
        moves := s.moves.tail, rxQueue := q, rxf := f, rxfSrc := d.src,
        timerArmed := false, out := s.out ++ [.trace (.ackReceived f.ack)], phase := .fill }))

/-- R177, R179: the Go-Back-N timeout and the return to the wait, with one retransmission between them (R178, of a chunk
that is not over-long). -/
def Obligations.GoBackNRound : Prop :=
  (∀ (s : State) (ms : List Move), s.moves = .expire :: ms → s.phase = .wait → s.timerArmed = true →
    step s = .next { s with
      moves := ms, timerArmed := false, out := s.out ++ [.trace (.dataTimeout s.base s.nextSeq)],
      rtx := s.base, phase := .retx }) ∧
  (∀ s : State, enginesTurn s → s.phase = .retx → s.rtx.toNat < s.nextSeq.toNat →
    (chunkRead s.chunks s.rtx.toNat).length ≤ 992 →
    step s = .next { s with
      moves := s.moves.tail,
      txf := ⟨s.rtx.setWidth 16, 0, 0x0000, s.negWindow, chunkRead s.chunks s.rtx.toNat⟩, txfDst := s.peer,
      out := s.out ++ [.tx s.peer
          (Frame.bytes ⟨s.rtx.setWidth 16, 0, 0x0000, s.negWindow, chunkRead s.chunks s.rtx.toNat⟩),
        .trace (.retransmitted (s.rtx.setWidth 16) s.base s.nextSeq)],
      rtx := s.rtx + 1 }) ∧
  (∀ s : State, enginesTurn s → s.phase = .retx → s.nextSeq.toNat ≤ s.rtx.toNat →
    step s = .next { s with moves := s.moves.tail, phase := .wait, timerArmed := true })

/-- R214, R255 (in FILL and in RETX): a chunk over 992 bytes is fatal when it is read for transmission; nothing is sent
and the result carries the partial progress.
The record in the result is read from R184, R192 and R212 (notes/assumptions/18.md). -/
def Obligations.OverlongChunkIsFatal : Prop :=
  ∀ (s : State) (k : U17), enginesTurn s →
    (s.phase = .fill ∧ k = s.nextSeq ∧ s.base.toNat ≤ s.total.toNat ∧
        s.nextSeq.toNat < s.base.toNat + s.negWindow.toNat ∧ s.nextSeq.toNat ≤ s.total.toNat) ∨
      (s.phase = .retx ∧ k = s.rtx ∧ s.rtx.toNat < s.nextSeq.toNat) →
    992 < (chunkRead s.chunks k.toNat).length →
    step s = .next { s with
      moves := s.moves.tail, err := .invalidPayload, timerArmed := false, elapsed := s.params.minus s.now s.t0,
      lifecycle := .closed, phase := .none,
      out := s.out ++ [.result (.errSend .invalidPayload ⟨s.bytes, s.params.minus s.now s.t0⟩ (s.base.toNat - 1))] }

/-- R178, R179 over a whole retransmission: with no other agent moving, `NEXT − RTX` steps send exactly the frames RTX to
NEXT − 1 in sequence order, and one more step re-enters the wait with the timer armed, BASE and NEXT as they were. -/
def Obligations.RetransmitsWholeWindow : Prop :=
  ∀ s : State, s.phase = .retx → s.moves = [] → s.rtx.toNat ≤ s.nextSeq.toNat → s.nextSeq.toNat ≤ 65536 →
    (∀ k, s.rtx.toNat ≤ k → k < s.nextSeq.toNat → (chunkRead s.chunks k).length ≤ 992) →
    ∃ t, Host.Core.run Sys2Proof.core (s.nextSeq.toNat - s.rtx.toNat + 1) s = .next t ∧
      t.phase = .wait ∧ t.timerArmed = true ∧ t.base = s.base ∧ t.nextSeq = s.nextSeq ∧ t.rtx = s.nextSeq ∧
      t.rxQueue = s.rxQueue ∧ t.bytes = s.bytes ∧ t.lifecycle = s.lifecycle ∧ t.err = s.err ∧
      txHistory t.out = txHistory s.out ++
        (List.range' s.rtx.toNat (s.nextSeq.toNat - s.rtx.toNat)).map (fun k =>
          (s.peer, Frame.bytes ⟨BitVec.ofNat 16 k, 0, 0x0000, s.negWindow, chunkRead s.chunks k⟩))

/-- R171 to R173 over a whole fill: with no other agent moving, the sender transmits the frames NEXT up to the edge of
the window or the last chunk, in order, and then waits with the timer armed. -/
def Obligations.FillsWholeWindow : Prop :=
  ∀ (s : State) (n : Nat), s.Inv → s.phase = .fill → s.moves = [] → s.base.toNat ≤ s.total.toNat →
    n = min (s.base.toNat + s.negWindow.toNat) (s.total.toNat + 1) - s.nextSeq.toNat →
    (∀ k, s.nextSeq.toNat ≤ k → k < s.nextSeq.toNat + n → (chunkRead s.chunks k).length ≤ 992) →
    ∃ t, Host.Core.run Sys2Proof.core (n + 1) s = .next t ∧
      t.phase = .wait ∧ t.timerArmed = true ∧ t.base = s.base ∧ t.nextSeq.toNat = s.nextSeq.toNat + n ∧
      t.rxQueue = s.rxQueue ∧
      txHistory t.out = txHistory s.out ++
        (List.range' s.nextSeq.toNat n).map (fun k =>
          (s.peer, Frame.bytes ⟨BitVec.ofNat 16 k, 0, 0x0000, s.negWindow, chunkRead s.chunks k⟩))

/-- R182, R183 (its second and third clauses): from the acceptance of SEND_ALL on, the sequence numbers on the TX port in
order of first appearance are 1, 2, 3, … up to NEXT − 1, and when the command ends normally they are exactly
1 to TOTAL. `mark` is the length of the output history when SEND_ALL was accepted. -/
def Obligations.FirstTransmissionsInOrder : Prop :=
  (∀ (total : Nat) (s t : State), exec (.sendAll total) s = .next t → t.phase = .fill → s.phase = .none →
    (txSeqs (t.out.drop s.out.length)).eraseDups = List.range' 1 (t.nextSeq.toNat - 1)) ∧
  (∀ (mark : Nat) (s t : State), s.Inv → sending s.phase = true → mark ≤ s.out.length →
    (txSeqs (s.out.drop mark)).eraseDups = List.range' 1 (s.nextSeq.toNat - 1) → step s = .next t →
    (sending t.phase = true → (txSeqs (t.out.drop mark)).eraseDups = List.range' 1 (t.nextSeq.toNat - 1)) ∧
    (t.phase = .none → t.lifecycle = .established →
      (txSeqs (t.out.drop mark)).eraseDups = List.range' 1 t.total.toNat))

/-- R45: with every chunk at most 992 bytes, BYTES during SEND_ALL is the number of payload bytes of the chunks below
BASE, at most 65,010,720, and never wraps. -/
def Obligations.SenderByteCountNeverWraps : Prop :=
  ∀ s : State, s.Inv → sending s.phase = true → (∀ k, (chunkRead s.chunks k).length ≤ 992) →
    s.bytes.toNat = chunkBytes s.chunks 1 (s.base.toNat - 1) ∧ s.bytes.toNat ≤ 65010720

/-! ## The receiver -/

/-- R193: FIN and FIN-ACK, and any datagram with the FIN bit, end the data phase; nothing is delivered or transmitted,
whatever the drop rule holds. -/
def Obligations.FinStopsReceiver : Prop :=
  (∀ (a : FrameArgs) (s : State), s.lifecycle = .established → s.phase = .recv →
    exec (.fin a) s = .next { s with
      rxQueue := s.rxQueue.tail, rxf := ⟨a.seq, a.ack, 0x0001, a.window, a.payload⟩, rxfSrc := a.src,
      lifecycle := .finRcvd, out := s.out ++ [.trace .finReceived] } ∧
    exec (.finack a) s = .next { s with
      rxQueue := s.rxQueue.tail, rxf := ⟨a.seq, a.ack, 0x0009, a.window, a.payload⟩, rxfSrc := a.src,
      lifecycle := .finRcvd, out := s.out ++ [.trace .finReceived] }) ∧
  (∀ (s : State) (d : Datagram) (q : List Datagram) (f : Frame), enginesTurn s →
    s.lifecycle = .established → s.phase = .recv → s.rxQueue = d :: q → codecDecode d.bytes = some f →
    f.flags.getLsbD 0 = true →
    step s = .next { s with
      moves := s.moves.tail, rxQueue := q, rxf := f, rxfSrc := d.src,
      lifecycle := .finRcvd, out := s.out ++ [.trace .finReceived] })

/-- R194, R195, R196: DATA at the receiver, by the drop rule and the sequence number; BYTES wraps on its 32 bits
(notes/assumptions/13.md). -/
def Obligations.DataAtReceiver : Prop :=
  ∀ (a : FrameArgs) (s : State), s.lifecycle = .established → s.phase = .recv →
    (s.dropArmed = true → a.seq = s.dropSeq →
      exec (.data a) s = .next { s with
        rxQueue := s.rxQueue.tail, rxf := ⟨a.seq, a.ack, 0x0000, a.window, a.payload⟩, rxfSrc := a.src,
        dropArmed := false, out := s.out ++ [.trace (.dropped a.seq)] }) ∧
    (s.dropArmed = false ∨ a.seq ≠ s.dropSeq → a.seq.toNat = s.expected.toNat →
      exec (.data a) s = .next { s with
        rxQueue := s.rxQueue.tail, rxf := ⟨a.seq, a.ack, 0x0000, a.window, a.payload⟩, rxfSrc := a.src,
        txf := ⟨0, a.seq, 0x0008, s.params.advWindow, []⟩, txfDst := s.peer,
        out := s.out ++ [.sink a.payload,
          .tx s.peer (Frame.bytes ⟨0, a.seq, 0x0008, s.params.advWindow, []⟩),
          .trace (.delivered a.seq a.payload.length)],
        bytes := s.bytes + BitVec.ofNat 32 a.payload.length, expected := s.expected + 1 }) ∧
    (s.dropArmed = false ∨ a.seq ≠ s.dropSeq → a.seq.toNat ≠ s.expected.toNat →
      exec (.data a) s = .next { s with
        rxQueue := s.rxQueue.tail, rxf := ⟨a.seq, a.ack, 0x0000, a.window, a.payload⟩, rxfSrc := a.src,
        out := s.out ++ [.trace (.outOfOrder a.seq s.expected)] })

/-- R194, R195, R196 for every datagram without the FIN bit, whatever its other bits: the drop rule, the in-order
test, the silent discard. BYTES wraps on its 32 bits (notes/assumptions/13.md). -/
def Obligations.ReceiverTestsInOrder : Prop :=
  ∀ (s : State) (d : Datagram) (q : List Datagram) (f : Frame), enginesTurn s →
    s.lifecycle = .established → s.phase = .recv → s.rxQueue = d :: q → codecDecode d.bytes = some f →
    f.flags.getLsbD 0 = false →
    (s.dropArmed = true → f.seq = s.dropSeq →
      step s = .next { s with
        moves := s.moves.tail, rxQueue := q, rxf := f, rxfSrc := d.src,
        dropArmed := false, out := s.out ++ [.trace (.dropped f.seq)] }) ∧
    (s.dropArmed = false ∨ f.seq ≠ s.dropSeq → f.seq.toNat = s.expected.toNat →
      step s = .next { s with
        moves := s.moves.tail, rxQueue := q, rxf := f, rxfSrc := d.src,
        txf := ⟨0, f.seq, 0x0008, s.params.advWindow, []⟩, txfDst := s.peer,
        out := s.out ++ [.sink f.payload,
          .tx s.peer (Frame.bytes ⟨0, f.seq, 0x0008, s.params.advWindow, []⟩),
          .trace (.delivered f.seq f.payload.length)],
        bytes := s.bytes + BitVec.ofNat 32 f.payload.length, expected := s.expected + 1 }) ∧
    (s.dropArmed = false ∨ f.seq ≠ s.dropSeq → f.seq.toNat ≠ s.expected.toNat →
      step s = .next { s with
        moves := s.moves.tail, rxQueue := q, rxf := f, rxfSrc := d.src,
        out := s.out ++ [.trace (.outOfOrder f.seq s.expected)] })

/-- R197, R198, R201: fed a stream of frames without FIN, each from any source, and with the drop rule spent, the receiver
delivers exactly the frames whose sequence numbers equal the running `expected`, in order, and sends one ACK for each of
them. -/
def Obligations.ReceiverDeliversInOrderSubsequence : Prop :=
  ∀ (s : State) (xs : List (Addr × Frame)) (q : List Datagram),
    s.lifecycle = .established → s.phase = .recv → s.moves = [] → s.dropArmed = false → s.expected.toNat ≤ 65536 →
    (∀ x ∈ xs, x.2.flags.getLsbD 0 = false) →
    s.rxQueue = xs.map (fun x => ⟨x.1, x.2.bytes⟩) ++ q →
    ∃ t, Host.Core.run Sys2Proof.core xs.length s = .next t ∧
      t.lifecycle = .established ∧ t.phase = .recv ∧ t.rxQueue = q ∧
      sinkChunks t.out = sinkChunks s.out ++ (inOrder s.expected.toNat (xs.map Prod.snd)).map Frame.payload ∧
      txHistory t.out = txHistory s.out ++ (inOrder s.expected.toNat (xs.map Prod.snd)).map (fun f =>
        (s.peer, Frame.bytes ⟨0, f.seq, 0x0008, s.params.advWindow, []⟩)) ∧
      t.expected.toNat = s.expected.toNat + (inOrder s.expected.toNat (xs.map Prod.snd)).length

/-- R197: while RECV_ALL is in progress the sink has exactly EXPECTED − 1 chunks of this transfer and BYTES is their
total length (on its 32 bits). `mark` is the length of the output history when RECV_ALL was accepted. BYTES wraps on its 32 bits
(notes/assumptions/13.md). -/
def Obligations.SinkMatchesExpected : Prop :=
  (∀ s t : State, exec .recvAll s = .next t → t.phase = .recv → s.phase = .none →
    (sinkChunks (t.out.drop s.out.length)).length = t.expected.toNat - 1 ∧ t.bytes = 0) ∧
  (∀ (mark : Nat) (s t : State), s.Inv → s.phase = .recv → mark ≤ s.out.length →
    (sinkChunks (s.out.drop mark)).length = s.expected.toNat - 1 →
    s.bytes = BitVec.ofNat 32 ((sinkChunks (s.out.drop mark)).map List.length).sum →
    step s = .next t → ¬ resetsNext s →
    (sinkChunks (t.out.drop mark)).length = t.expected.toNat - 1 ∧
    t.bytes = BitVec.ofNat 32 ((sinkChunks (t.out.drop mark)).map List.length).sum)

/-! ## Errors and events -/

/-- R192, and the same in every other waiting phase: a datagram shorter than 8 bytes is fatal; it is consumed, RXF is
left alone, and a transfer's result carries its progress.
The record in the result is read from R184, R192 and R212 (notes/assumptions/18.md). -/
def Obligations.ShortDatagramIsFatal : Prop :=
  ∀ (s : State) (d : Datagram) (q : List Datagram), enginesTurn s → waitOf s.lifecycle s.phase ≠ none →
    s.rxQueue = d :: q → d.bytes.length < 8 →
    step s = .next { s with
      moves := s.moves.tail, rxQueue := q, err := .shortHeader, timerArmed := false,
      elapsed := if s.phase = .wait ∨ s.phase = .recv then s.params.minus s.now s.t0 else s.elapsed,
      lifecycle := .closed, phase := .none,
      out := s.out ++ [.result (
        if s.phase = .wait then .errSend .shortHeader ⟨s.bytes, s.params.minus s.now s.t0⟩ (s.base.toNat - 1)
        else if s.phase = .recv then .errRecv .shortHeader ⟨s.bytes, s.params.minus s.now s.t0⟩
        else .err .shortHeader)] }

/-- R220: the fatal action, as a socket failure takes it in every phase with a command in progress; with none in
progress the event has no effect.
The record in the result is read from R184, R192 and R212 (notes/assumptions/18.md). -/
def Obligations.SocketFailureIsFatal : Prop :=
  ∀ (s : State) (ms : List Move), s.moves = .socketFail :: ms →
    (s.phase = .none → step s = .next { s with moves := ms }) ∧
    (s.phase = .listen ∨ s.phase = .hsWait ∨ s.phase = .finWait →
      step s = .next { s with
        moves := ms, err := .socketError, timerArmed := false, lifecycle := .closed, phase := .none,
        out := s.out ++ [.result (.err .socketError)] }) ∧
    (s.phase = .fill ∨ s.phase = .wait ∨ s.phase = .retx →
      step s = .next { s with
        moves := ms, err := .socketError, timerArmed := false, elapsed := s.params.minus s.now s.t0,
        lifecycle := .closed, phase := .none,
        out := s.out ++ [.result (.errSend .socketError ⟨s.bytes, s.params.minus s.now s.t0⟩ (s.base.toNat - 1))] }) ∧
    (s.phase = .recv →
      step s = .next { s with
        moves := ms, err := .socketError, timerArmed := false, elapsed := s.params.minus s.now s.t0,
        lifecycle := .closed, phase := .none,
        out := s.out ++ [.result (.errRecv .socketError ⟨s.bytes, s.params.minus s.now s.t0⟩)] })

/-- R143: the handshake timeout. -/
def Obligations.HandshakeTimeoutIsFatal : Prop :=
  ∀ (s : State) (ms : List Move), s.moves = .expire :: ms → s.timerArmed = true →
    s.lifecycle = .synSent → s.phase = .hsWait →
    step s = .next { s with
      moves := ms, err := .handshakeTimeout, timerArmed := false, lifecycle := .closed, phase := .none,
      out := s.out ++ [.result (.err .handshakeTimeout)] }

/-- R154: the teardown timeout closes the client, ERR unchanged. -/
def Obligations.TeardownTimeoutCloses : Prop :=
  ∀ (s : State) (ms : List Move), s.moves = .expire :: ms → s.timerArmed = true →
    s.lifecycle = .finSent → s.phase = .finWait →
    step s = .next { s with
      moves := ms, timerArmed := false, lifecycle := .closed, phase := .none,
      out := s.out ++ [.trace .teardownTimeout, .result .okTeardownTimeout] }

/-- R229: in each of the three timed waits, with any datagram pending and the timer armed, the pop and the expiry are both
possible next steps, a socket failure may pre-empt either, and reset pre-empts all. That the order of the agents is a list
of moves is the model's (notes/assumptions/5.md). -/
def Obligations.FrameAndExpiryBothPossible : Prop :=
  ∀ (s : State) (d : Datagram) (q : List Datagram),
    (s.lifecycle = .synSent ∧ s.phase = .hsWait) ∨ (s.lifecycle = .established ∧ s.phase = .wait) ∨
      (s.lifecycle = .finSent ∧ s.phase = .finWait) →
    s.timerArmed = true → s.rxQueue = d :: q →
    (∃ t, step { s with moves := [.engine] } = .next t ∧ t.rxQueue = q ∧
      (codecDecode d.bytes = none → t.lifecycle = .closed ∧ t.err = .shortHeader) ∧
      (∀ f, codecDecode d.bytes = some f → t.rxf = f ∧ t.rxfSrc = d.src ∧
        (s.phase = .hsWait → f.flags.getLsbD 1 = true → f.flags.getLsbD 3 = true → t.lifecycle = .established) ∧
        (s.phase = .wait → f.flags.getLsbD 3 = true → t.phase = .fill ∧ t.timerArmed = false) ∧
        (s.phase = .finWait → f.flags.getLsbD 3 = true → t.lifecycle = .closed ∧ t.err = s.err))) ∧
    (∃ t, step { s with moves := [.expire] } = .next t ∧ t.rxQueue = d :: q ∧ t.timerArmed = false ∧
      (s.phase = .hsWait → t.lifecycle = .closed ∧ t.err = .handshakeTimeout) ∧
      (s.phase = .wait → t.phase = .retx ∧ t.rtx = s.base) ∧
      (s.phase = .finWait → t.lifecycle = .closed ∧ t.err = s.err)) ∧
    (∃ t, step { s with moves := [.socketFail] } = .next t ∧ t.rxQueue = d :: q ∧ t.lifecycle = .closed ∧
      t.err = .socketError) ∧
    (∃ t, step { s with moves := [.reset] } = .next t ∧ t.rxQueue = [] ∧ t.lifecycle = .idle ∧ t.timerArmed = false)

/-- R70, R67: the arrival of a datagram. -/
def Obligations.ArrivalQueuesOrLoses : Prop :=
  ∀ (s : State) (src : Addr) (b : Bytes) (ms : List Move), s.moves = .deliver src b :: ms →
    ((∀ n, s.params.rxqDepth = some n → s.rxQueue.length < n) →
      step s = .next { s with moves := ms, rxQueue := s.rxQueue ++ [⟨src, b.take s.params.rxMax⟩] }) ∧
    (∀ n, s.params.rxqDepth = some n → n ≤ s.rxQueue.length → step s = .next { s with moves := ms })

/-- R222, R227: outside the six waiting phases a frame stays pending: the instruction changes nothing, and no step of
the engine takes anything from the RX queue. That exec of a frame instruction there answers the same state
(notes/assumptions/8.md), and that the pairs of STATE and PHASE which R22 does not have take no frame (16.md), is the
model's. -/
def Obligations.FramesStayPendingOutsideWaits : Prop :=
  (∀ (l : Lifecycle) (p : Phase), waitOf l p = none ↔
    ¬ ((l = .synSent ∧ p = .hsWait) ∨ (l = .idle ∧ p = .listen) ∨ (l = .synRcvd ∧ p = .hsWait) ∨
      (l = .established ∧ p = .wait) ∨ (l = .finSent ∧ p = .finWait) ∨ (l = .established ∧ p = .recv))) ∧
  (∀ (i : Instr) (s : State), isCommand i = false → waitOf s.lifecycle s.phase = none → exec i s = .next s) ∧
  (∀ s t : State, enginesTurn s → waitOf s.lifecycle s.phase = none → step s = .next t → t.rxQueue = s.rxQueue)

/-- R39: the test seam writes the drop registers in (IDLE, NONE). That elsewhere the move changes nothing is the
model's form of "may write both only while" (notes/assumptions/15.md). -/
def Obligations.SeamWritesOnlyWhenIdle : Prop :=
  ∀ (s : State) (seq : U16) (armed : Bool) (ms : List Move), s.moves = .seam seq armed :: ms →
    (s.lifecycle = .idle → s.phase = .none →
      step s = .next { s with moves := ms, dropSeq := seq, dropArmed := armed }) ∧
    (s.lifecycle ≠ .idle ∨ s.phase ≠ .none → step s = .next { s with moves := ms })

/-- R250, R48: the reset input, and State.reset: every value the spec states; the outputs are kept, nothing is
transmitted and no result is posted; the engine then does nothing until the host issues a command. That the results are
kept too (notes/assumptions/7.md) and that a blocked step answers the same state (notes/assumptions/6.md) is the
model's. -/
def Obligations.ResetRestoresStatedValues : Prop :=
  (∀ (s : State) (ms : List Move), s.moves = .reset :: ms → ∃ t, step s = .next t ∧
    t.lifecycle = .idle ∧ t.phase = .none ∧ t.role = .none ∧ t.err = .none ∧
    t.base = 1 ∧ t.nextSeq = 1 ∧ t.expected = 1 ∧ t.rtx = 1 ∧ t.total = 0 ∧
    t.cfgWindow = 3 ∧ t.peerWindow = 0 ∧ t.negWindow = 0 ∧ t.dropSeq = 0 ∧ t.dropArmed = false ∧
    t.timerArmed = false ∧ t.bytes = 0 ∧ t.rxQueue = [] ∧ t.out = s.out ∧ t.moves = ms ∧
    t.chunks = s.chunks ∧ t.now = s.now ∧ t.params = s.params) ∧
  (State.reset.lifecycle = .idle ∧ State.reset.phase = .none ∧ State.reset.role = .none ∧ State.reset.err = .none ∧
    State.reset.base = 1 ∧ State.reset.nextSeq = 1 ∧ State.reset.expected = 1 ∧ State.reset.rtx = 1 ∧
    State.reset.total = 0 ∧ State.reset.cfgWindow = 3 ∧ State.reset.peerWindow = 0 ∧ State.reset.negWindow = 0 ∧
    State.reset.dropSeq = 0 ∧ State.reset.dropArmed = false ∧ State.reset.timerArmed = false ∧
    State.reset.bytes = 0 ∧ State.reset.rxQueue = []) ∧
  step State.reset = .next State.reset

/-! ## Whole-machine rules -/

/-- The invariant of a Session holds after reset, for the free parameters and for all that R9 admits. -/
def Obligations.InvariantAtReset : Prop :=
  State.reset.Inv ∧ ∀ p : Config.Params, p.wf = true → (State.resetWith p).Inv

/-- Every step keeps the invariant of a Session (R34, R40, R182 and the combinations of R22, R158 among it; the
canonical form of chunk memory and the numbering of Addr are the model's, notes/assumptions/11.md and 1.md). -/
def Obligations.StepKeepsInvariant : Prop :=
  ∀ s t : State, s.Inv → step s = .next t → t.Inv

/-- R158: STATE changes only along the arrows of the transition table; only reset leads back to IDLE. -/
def Obligations.StateMovesOnlyByTable : Prop :=
  ∀ s t : State, step s = .next t →
    (¬ resetsNext s → stateMoves false s.lifecycle t.lifecycle = true) ∧
    (resetsNext s → t.lifecycle = .idle)

/-- R157: CLOSED is terminal. No step but reset changes a register, pops a frame, arms the timer or transmits; the
outputs grow by results only. -/
def Obligations.ClosedIsTerminal : Prop :=
  ∀ s t : State, s.Inv → sessionOver s → ¬ resetsNext s → step s = .next t →
    ∃ (rs : List CmdResult) (q : List Datagram), t = { s with
      moves := t.moves, chunks := t.chunks, now := t.now,
      rxQueue := s.rxQueue ++ q, out := s.out ++ rs.map Output.result }

/-- R235, R25: a role is entered from NONE, by OPEN or ACCEPT, and left only by reset. -/
def Obligations.RoleFixedForSession : Prop :=
  ∀ s t : State, step s = .next t → ¬ resetsNext s → t.role ≠ s.role →
    s.role = .none ∧ ∃ args ms, (s.moves = .command 3 args :: ms ∧ t.role = .client) ∨
      (s.moves = .command 4 args :: ms ∧ t.role = .server)

/-- R24: a step transmits at most one frame, writes at most one chunk to the sink, and takes at most one frame from the RX
queue. R44, R64, R66, R250: the outputs only grow. That they are one list, that a step posts at most one result, and that
reset keeps the results too, is the model's (notes/assumptions/7.md). -/
def Obligations.OneFrameOneChunkPerStep : Prop :=
  ∀ s t : State, step s = .next t →
    (∃ new, t.out = s.out ++ new ∧ (txHistory new).length ≤ 1 ∧ (sinkChunks new).length ≤ 1 ∧
      (results new).length ≤ 1) ∧
    (¬ resetsNext s → t.rxQueue = s.rxQueue ∨ t.rxQueue = s.rxQueue.tail ∨ ∃ d, t.rxQueue = s.rxQueue ++ [d])

/-- R108, R65, R98, R38: every datagram a step hands to the TX port is one of the rows of the table of emitted frames,
is 8 to 1000 bytes long, has a kind other than OTHER (so no reserved flag bit), and goes to PEER. -/
def Obligations.EmittedFramesAreCanonical : Prop :=
  ∀ s t : State, s.Inv → step s = .next t → ∃ new, t.out = s.out ++ new ∧
    ∀ x ∈ txHistory new, x.1 = t.peer ∧ 8 ≤ x.2.length ∧ x.2.length ≤ 1000 ∧
      ∃ f : Frame, x.2 = f.bytes ∧ f.kind ≠ .other ∧
        (f = ⟨0, 0, 0x0002, 0, []⟩ ∨
         f = ⟨0, t.rxf.seq + 1, 0x000A, s.params.advWindow, []⟩ ∨
         f = ⟨0, t.rxf.seq + 1, 0x0008, 0, []⟩ ∨
         (∃ k, 1 ≤ k ∧ k ≤ s.total.toNat ∧ f = ⟨BitVec.ofNat 16 k, 0, 0x0000, s.negWindow, chunkRead s.chunks k⟩) ∨
         (1 ≤ s.expected.toNat ∧ s.expected.toNat ≤ 65535 ∧
           f = ⟨0, BitVec.ofNat 16 s.expected.toNat, 0x0008, s.params.advWindow, []⟩) ∨
         f = ⟨0, 0, 0x0001, 0, []⟩ ∨
         f = ⟨0, 0, 0x0009, 0, []⟩)

/-- R44 (which the spec marks as derived): the engine never reads its outputs back: with another output history the same step is taken and the same
outputs are added. -/
def Obligations.OutputsAreNeverReadBack : Prop :=
  ∀ (s t : State) (o : List Output), step s = .next t →
    ∃ new, t.out = s.out ++ new ∧ step { s with out := o } = .next { t with out := o ++ new }

/-- R71, R97: outside the two server waits of the handshake, where the source becomes PEER, the source address of a
frame changes nothing but RXF.src: as the frame is processed, and in the engine's step on a datagram of any kind at the
head of the RX queue; of a datagram shorter than 8 bytes it changes nothing at all, in any wait. -/
def Obligations.SourceAddressNotExamined : Prop :=
  (∀ (s : State) (f : Frame) (a b : Addr), waitOf s.lifecycle s.phase ≠ some .serverListen →
    waitOf s.lifecycle s.phase ≠ some .serverThird → waitOf s.lifecycle s.phase ≠ none →
    receive f a s = { receive f b s with rxfSrc := a }) ∧
  (∀ (s : State) (bs : Bytes) (q : List Datagram) (a b : Addr), enginesTurn s →
    waitOf s.lifecycle s.phase ≠ some .serverListen → waitOf s.lifecycle s.phase ≠ some .serverThird →
    waitOf s.lifecycle s.phase ≠ none → 8 ≤ bs.length →
    ∃ t, step { s with rxQueue := ⟨a, bs⟩ :: q } = .next t ∧ t.rxfSrc = a ∧
      step { s with rxQueue := ⟨b, bs⟩ :: q } = .next { t with rxfSrc := b }) ∧
  (∀ (s : State) (bs : Bytes) (q : List Datagram) (a b : Addr), enginesTurn s →
    waitOf s.lifecycle s.phase ≠ none → bs.length < 8 →
    ∃ t, step { s with rxQueue := ⟨a, bs⟩ :: q } = .next t ∧ step { s with rxQueue := ⟨b, bs⟩ :: q } = .next t)

/-- R98: the reserved flag bits of a received frame change nothing but RXF.flags: as the frame is processed, and in the
engine's step on a datagram of any kind at the head of the RX queue. -/
def Obligations.ReservedFlagBitsIgnored : Prop :=
  (∀ (s : State) (f : Frame) (src : Addr) (fl : U16), waitOf s.lifecycle s.phase ≠ none →
    fl &&& 0x000B = f.flags &&& 0x000B →
    receive { f with flags := fl } src s = { receive f src s with rxf := { f with flags := fl } }) ∧
  (∀ (s : State) (f : Frame) (src : Addr) (fl : U16) (b1 b2 : Bytes) (q : List Datagram), enginesTurn s →
    waitOf s.lifecycle s.phase ≠ none → fl &&& 0x000B = f.flags &&& 0x000B →
    codecDecode b1 = some f → codecDecode b2 = some { f with flags := fl } →
    ∃ t, step { s with rxQueue := ⟨src, b1⟩ :: q } = .next t ∧ t.rxf = f ∧
      step { s with rxQueue := ⟨src, b2⟩ :: q } = .next { t with rxf := { f with flags := fl } })

/-! ## Chunk memory -/

/-- R62: reading a chunk after a store gives the chunk stored, and a store leaves every other chunk alone; and what a step
does with the host's two writes of chunk memory: it writes outside SEND_ALL, refuses while SEND_ALL is in progress (R254,
U18), and faults on a chunk number outside 1 to 65535 (R60, R31). The two stops and the canonical form are the model's
(notes/assumptions/12.md, 11.md). -/
def Obligations.ChunkReadAfterStore : Prop :=
  (∀ (m : ChunkMem) (k j : Nat) (b : Bytes), Memory.wf m →
    chunkRead (chunkWrite m k b) j = if j = k then b else chunkRead m j) ∧
  (∀ (s : State) (k : Nat) (b : Bytes) (ms : List Move), s.moves = .storeChunk k b :: ms →
    (s.phase = .fill ∨ s.phase = .wait ∨ s.phase = .retx → step s = .refused .chunkMemoryInUse) ∧
    (s.phase ≠ .fill → s.phase ≠ .wait → s.phase ≠ .retx → k = 0 ∨ 65535 < k → step s = .fault .noSuchChunk) ∧
    (s.phase ≠ .fill → s.phase ≠ .wait → s.phase ≠ .retx → 1 ≤ k → k ≤ 65535 → Memory.wf s.chunks →
      ∃ m, step s = .next { s with moves := ms, chunks := m } ∧ Memory.wf m ∧
        ∀ j, chunkRead m j = if j = k then b else chunkRead s.chunks j)) ∧
  (∀ (s : State) (data : Bytes) (ms : List Move), s.moves = .fillChunks data :: ms →
    (s.phase = .fill ∨ s.phase = .wait ∨ s.phase = .retx → step s = .refused .chunkMemoryInUse) ∧
    (s.phase ≠ .fill → s.phase ≠ .wait → s.phase ≠ .retx → 65535 < (cutData data).length →
      step s = .fault .noSuchChunk) ∧
    (s.phase ≠ .fill → s.phase ≠ .wait → s.phase ≠ .retx → (cutData data).length ≤ 65535 →
      ∃ m, step s = .next { s with moves := ms, chunks := m } ∧ Memory.wf m ∧
        (∀ k (h : k < (cutData data).length), chunkRead m (k + 1) = (cutData data)[k]) ∧
        ∀ k, k = 0 ∨ (cutData data).length < k → chunkRead m k = unlistedChunk))

/-- R63 (which the spec marks as derived): data of `n` bytes is cut into `ceil(n / 992)` chunks, all of 992 bytes but the last, whose concatenation is the
data; filling chunk memory with it makes chunk `k` the `k`-th piece. -/
def Obligations.DataCutAtFixedBoundaries : Prop :=
  ∀ data : Bytes,
    (cutData data).length = (data.length + 991) / 992 ∧ (cutData data).flatten = data ∧
    (∀ k (h : k < (cutData data).length), k + 1 < (cutData data).length → ((cutData data)[k]).length = 992) ∧
    (∀ h : 0 < (cutData data).length, ((cutData data)[(cutData data).length - 1]).length =
      data.length - 992 * ((cutData data).length - 1)) ∧
    (∀ k (h : k < (cutData data).length), chunkRead (numberFrom 1 (cutData data)) (k + 1) = (cutData data)[k])
end

