-- ==== Sys2Proof/Laws/Flags.lean ====
section
/-! SUPPORT. The four named flag bits of a frame of each kind (spec/30_encoding.md R94, R95). -/

namespace Sys2Proof.Machine

@[simp] theorem finBit_syn (a : FrameArgs) : finBit (a.frame flagsSyn) = false := (by decide : (flagsSyn).getLsbD 0 = false)

@[simp] theorem finBit_synack (a : FrameArgs) : finBit (a.frame flagsSynack) = false := (by decide : (flagsSynack).getLsbD 0 = false)

@[simp] theorem finBit_ack (a : FrameArgs) : finBit (a.frame flagsAck) = false := (by decide : (flagsAck).getLsbD 0 = false)

@[simp] theorem finBit_fin (a : FrameArgs) : finBit (a.frame flagsFin) = true := (by decide : (flagsFin).getLsbD 0 = true)

@[simp] theorem finBit_finack (a : FrameArgs) : finBit (a.frame flagsFinack) = true := (by decide : (flagsFinack).getLsbD 0 = true)

@[simp] theorem finBit_data (a : FrameArgs) : finBit (a.frame flagsData) = false := (by decide : (flagsData).getLsbD 0 = false)

@[simp] theorem synBit_syn (a : FrameArgs) : synBit (a.frame flagsSyn) = true := (by decide : (flagsSyn).getLsbD 1 = true)

@[simp] theorem synBit_synack (a : FrameArgs) : synBit (a.frame flagsSynack) = true := (by decide : (flagsSynack).getLsbD 1 = true)

@[simp] theorem synBit_ack (a : FrameArgs) : synBit (a.frame flagsAck) = false := (by decide : (flagsAck).getLsbD 1 = false)

@[simp] theorem synBit_fin (a : FrameArgs) : synBit (a.frame flagsFin) = false := (by decide : (flagsFin).getLsbD 1 = false)

@[simp] theorem synBit_finack (a : FrameArgs) : synBit (a.frame flagsFinack) = false := (by decide : (flagsFinack).getLsbD 1 = false)

@[simp] theorem synBit_data (a : FrameArgs) : synBit (a.frame flagsData) = false := (by decide : (flagsData).getLsbD 1 = false)

@[simp] theorem rstBit_syn (a : FrameArgs) : rstBit (a.frame flagsSyn) = false := (by decide : (flagsSyn).getLsbD 2 = false)

@[simp] theorem rstBit_synack (a : FrameArgs) : rstBit (a.frame flagsSynack) = false := (by decide : (flagsSynack).getLsbD 2 = false)

@[simp] theorem rstBit_ack (a : FrameArgs) : rstBit (a.frame flagsAck) = false := (by decide : (flagsAck).getLsbD 2 = false)

@[simp] theorem rstBit_fin (a : FrameArgs) : rstBit (a.frame flagsFin) = false := (by decide : (flagsFin).getLsbD 2 = false)

@[simp] theorem rstBit_finack (a : FrameArgs) : rstBit (a.frame flagsFinack) = false := (by decide : (flagsFinack).getLsbD 2 = false)

@[simp] theorem rstBit_data (a : FrameArgs) : rstBit (a.frame flagsData) = false := (by decide : (flagsData).getLsbD 2 = false)

@[simp] theorem ackBit_syn (a : FrameArgs) : ackBit (a.frame flagsSyn) = false := (by decide : (flagsSyn).getLsbD 3 = false)

@[simp] theorem ackBit_synack (a : FrameArgs) : ackBit (a.frame flagsSynack) = true := (by decide : (flagsSynack).getLsbD 3 = true)

@[simp] theorem ackBit_ack (a : FrameArgs) : ackBit (a.frame flagsAck) = true := (by decide : (flagsAck).getLsbD 3 = true)

@[simp] theorem ackBit_fin (a : FrameArgs) : ackBit (a.frame flagsFin) = false := (by decide : (flagsFin).getLsbD 3 = false)

@[simp] theorem ackBit_finack (a : FrameArgs) : ackBit (a.frame flagsFinack) = true := (by decide : (flagsFinack).getLsbD 3 = true)

@[simp] theorem ackBit_data (a : FrameArgs) : ackBit (a.frame flagsData) = false := (by decide : (flagsData).getLsbD 3 = false)

end Sys2Proof.Machine
end

