-- ==== Sys2Proof/Laws/State.lean ====
section
/-! SUPPORT. One lemma per field for each named operation of Machine/Ops.lean, true by rfl and tagged @[simp], so that no
proof unfolds an operation to see what it leaves alone. -/

namespace Sys2Proof.Machine

/-! ## deliver -/

section
variable (s : State) (src : Addr) (b : Bytes)

@[simp] theorem deliver_lifecycle : (s.deliver src b).lifecycle = s.lifecycle := rfl
@[simp] theorem deliver_phase : (s.deliver src b).phase = s.phase := rfl
@[simp] theorem deliver_role : (s.deliver src b).role = s.role := rfl
@[simp] theorem deliver_err : (s.deliver src b).err = s.err := rfl
@[simp] theorem deliver_rxf : (s.deliver src b).rxf = s.rxf := rfl
@[simp] theorem deliver_rxfSrc : (s.deliver src b).rxfSrc = s.rxfSrc := rfl
@[simp] theorem deliver_txf : (s.deliver src b).txf = s.txf := rfl
@[simp] theorem deliver_txfDst : (s.deliver src b).txfDst = s.txfDst := rfl
@[simp] theorem deliver_base : (s.deliver src b).base = s.base := rfl
@[simp] theorem deliver_nextSeq : (s.deliver src b).nextSeq = s.nextSeq := rfl
@[simp] theorem deliver_total : (s.deliver src b).total = s.total := rfl
@[simp] theorem deliver_rtx : (s.deliver src b).rtx = s.rtx := rfl
@[simp] theorem deliver_expected : (s.deliver src b).expected = s.expected := rfl
@[simp] theorem deliver_cfgWindow : (s.deliver src b).cfgWindow = s.cfgWindow := rfl
@[simp] theorem deliver_peerWindow : (s.deliver src b).peerWindow = s.peerWindow := rfl
@[simp] theorem deliver_negWindow : (s.deliver src b).negWindow = s.negWindow := rfl
@[simp] theorem deliver_peer : (s.deliver src b).peer = s.peer := rfl
@[simp] theorem deliver_dropSeq : (s.deliver src b).dropSeq = s.dropSeq := rfl
@[simp] theorem deliver_dropArmed : (s.deliver src b).dropArmed = s.dropArmed := rfl
@[simp] theorem deliver_timerArmed : (s.deliver src b).timerArmed = s.timerArmed := rfl
@[simp] theorem deliver_bytes : (s.deliver src b).bytes = s.bytes := rfl
@[simp] theorem deliver_t0 : (s.deliver src b).t0 = s.t0 := rfl
@[simp] theorem deliver_elapsed : (s.deliver src b).elapsed = s.elapsed := rfl
@[simp] theorem deliver_rxQueue : (s.deliver src b).rxQueue = if queueFull s.params s.rxQueue then s.rxQueue else s.rxQueue ++ [⟨src, b.take s.params.rxMax⟩] := rfl
@[simp] theorem deliver_out : (s.deliver src b).out = s.out := rfl
@[simp] theorem deliver_chunks : (s.deliver src b).chunks = s.chunks := rfl
@[simp] theorem deliver_now : (s.deliver src b).now = s.now := rfl
@[simp] theorem deliver_params : (s.deliver src b).params = s.params := rfl
@[simp] theorem deliver_moves : (s.deliver src b).moves = s.moves := rfl

end

/-! ## rxPop -/

section
variable (s : State)

@[simp] theorem rxPop_lifecycle : (s.rxPop).lifecycle = s.lifecycle := rfl
@[simp] theorem rxPop_phase : (s.rxPop).phase = s.phase := rfl
@[simp] theorem rxPop_role : (s.rxPop).role = s.role := rfl
@[simp] theorem rxPop_err : (s.rxPop).err = s.err := rfl
@[simp] theorem rxPop_rxf : (s.rxPop).rxf = s.rxf := rfl
@[simp] theorem rxPop_rxfSrc : (s.rxPop).rxfSrc = s.rxfSrc := rfl
@[simp] theorem rxPop_txf : (s.rxPop).txf = s.txf := rfl
@[simp] theorem rxPop_txfDst : (s.rxPop).txfDst = s.txfDst := rfl
@[simp] theorem rxPop_base : (s.rxPop).base = s.base := rfl
@[simp] theorem rxPop_nextSeq : (s.rxPop).nextSeq = s.nextSeq := rfl
@[simp] theorem rxPop_total : (s.rxPop).total = s.total := rfl
@[simp] theorem rxPop_rtx : (s.rxPop).rtx = s.rtx := rfl
@[simp] theorem rxPop_expected : (s.rxPop).expected = s.expected := rfl
@[simp] theorem rxPop_cfgWindow : (s.rxPop).cfgWindow = s.cfgWindow := rfl
@[simp] theorem rxPop_peerWindow : (s.rxPop).peerWindow = s.peerWindow := rfl
@[simp] theorem rxPop_negWindow : (s.rxPop).negWindow = s.negWindow := rfl
@[simp] theorem rxPop_peer : (s.rxPop).peer = s.peer := rfl
@[simp] theorem rxPop_dropSeq : (s.rxPop).dropSeq = s.dropSeq := rfl
@[simp] theorem rxPop_dropArmed : (s.rxPop).dropArmed = s.dropArmed := rfl
@[simp] theorem rxPop_timerArmed : (s.rxPop).timerArmed = s.timerArmed := rfl
@[simp] theorem rxPop_bytes : (s.rxPop).bytes = s.bytes := rfl
@[simp] theorem rxPop_t0 : (s.rxPop).t0 = s.t0 := rfl
@[simp] theorem rxPop_elapsed : (s.rxPop).elapsed = s.elapsed := rfl
@[simp] theorem rxPop_rxQueue : (s.rxPop).rxQueue = s.rxQueue.drop 1 := rfl
@[simp] theorem rxPop_out : (s.rxPop).out = s.out := rfl
@[simp] theorem rxPop_chunks : (s.rxPop).chunks = s.chunks := rfl
@[simp] theorem rxPop_now : (s.rxPop).now = s.now := rfl
@[simp] theorem rxPop_params : (s.rxPop).params = s.params := rfl
@[simp] theorem rxPop_moves : (s.rxPop).moves = s.moves := rfl

end

/-! ## takeFrame -/

section
variable (s : State) (f : Frame) (src : Addr)

@[simp] theorem takeFrame_lifecycle : (s.takeFrame f src).lifecycle = s.lifecycle := rfl
@[simp] theorem takeFrame_phase : (s.takeFrame f src).phase = s.phase := rfl
@[simp] theorem takeFrame_role : (s.takeFrame f src).role = s.role := rfl
@[simp] theorem takeFrame_err : (s.takeFrame f src).err = s.err := rfl
@[simp] theorem takeFrame_rxf : (s.takeFrame f src).rxf = f := rfl
@[simp] theorem takeFrame_rxfSrc : (s.takeFrame f src).rxfSrc = src := rfl
@[simp] theorem takeFrame_txf : (s.takeFrame f src).txf = s.txf := rfl
@[simp] theorem takeFrame_txfDst : (s.takeFrame f src).txfDst = s.txfDst := rfl
@[simp] theorem takeFrame_base : (s.takeFrame f src).base = s.base := rfl
@[simp] theorem takeFrame_nextSeq : (s.takeFrame f src).nextSeq = s.nextSeq := rfl
@[simp] theorem takeFrame_total : (s.takeFrame f src).total = s.total := rfl
@[simp] theorem takeFrame_rtx : (s.takeFrame f src).rtx = s.rtx := rfl
@[simp] theorem takeFrame_expected : (s.takeFrame f src).expected = s.expected := rfl
@[simp] theorem takeFrame_cfgWindow : (s.takeFrame f src).cfgWindow = s.cfgWindow := rfl
@[simp] theorem takeFrame_peerWindow : (s.takeFrame f src).peerWindow = s.peerWindow := rfl
@[simp] theorem takeFrame_negWindow : (s.takeFrame f src).negWindow = s.negWindow := rfl
@[simp] theorem takeFrame_peer : (s.takeFrame f src).peer = s.peer := rfl
@[simp] theorem takeFrame_dropSeq : (s.takeFrame f src).dropSeq = s.dropSeq := rfl
@[simp] theorem takeFrame_dropArmed : (s.takeFrame f src).dropArmed = s.dropArmed := rfl
@[simp] theorem takeFrame_timerArmed : (s.takeFrame f src).timerArmed = s.timerArmed := rfl
@[simp] theorem takeFrame_bytes : (s.takeFrame f src).bytes = s.bytes := rfl
@[simp] theorem takeFrame_t0 : (s.takeFrame f src).t0 = s.t0 := rfl
@[simp] theorem takeFrame_elapsed : (s.takeFrame f src).elapsed = s.elapsed := rfl
@[simp] theorem takeFrame_rxQueue : (s.takeFrame f src).rxQueue = s.rxQueue.drop 1 := rfl
@[simp] theorem takeFrame_out : (s.takeFrame f src).out = s.out := rfl
@[simp] theorem takeFrame_chunks : (s.takeFrame f src).chunks = s.chunks := rfl
@[simp] theorem takeFrame_now : (s.takeFrame f src).now = s.now := rfl
@[simp] theorem takeFrame_params : (s.takeFrame f src).params = s.params := rfl
@[simp] theorem takeFrame_moves : (s.takeFrame f src).moves = s.moves := rfl

end

/-! ## tx -/

section
variable (s : State) (dst : Addr) (f : Frame)

@[simp] theorem tx_lifecycle : (s.tx dst f).lifecycle = s.lifecycle := rfl
@[simp] theorem tx_phase : (s.tx dst f).phase = s.phase := rfl
@[simp] theorem tx_role : (s.tx dst f).role = s.role := rfl
@[simp] theorem tx_err : (s.tx dst f).err = s.err := rfl
@[simp] theorem tx_rxf : (s.tx dst f).rxf = s.rxf := rfl
@[simp] theorem tx_rxfSrc : (s.tx dst f).rxfSrc = s.rxfSrc := rfl
@[simp] theorem tx_txf : (s.tx dst f).txf = f := rfl
@[simp] theorem tx_txfDst : (s.tx dst f).txfDst = dst := rfl
@[simp] theorem tx_base : (s.tx dst f).base = s.base := rfl
@[simp] theorem tx_nextSeq : (s.tx dst f).nextSeq = s.nextSeq := rfl
@[simp] theorem tx_total : (s.tx dst f).total = s.total := rfl
@[simp] theorem tx_rtx : (s.tx dst f).rtx = s.rtx := rfl
@[simp] theorem tx_expected : (s.tx dst f).expected = s.expected := rfl
@[simp] theorem tx_cfgWindow : (s.tx dst f).cfgWindow = s.cfgWindow := rfl
@[simp] theorem tx_peerWindow : (s.tx dst f).peerWindow = s.peerWindow := rfl
@[simp] theorem tx_negWindow : (s.tx dst f).negWindow = s.negWindow := rfl
@[simp] theorem tx_peer : (s.tx dst f).peer = s.peer := rfl
@[simp] theorem tx_dropSeq : (s.tx dst f).dropSeq = s.dropSeq := rfl
@[simp] theorem tx_dropArmed : (s.tx dst f).dropArmed = s.dropArmed := rfl
@[simp] theorem tx_timerArmed : (s.tx dst f).timerArmed = s.timerArmed := rfl
@[simp] theorem tx_bytes : (s.tx dst f).bytes = s.bytes := rfl
@[simp] theorem tx_t0 : (s.tx dst f).t0 = s.t0 := rfl
@[simp] theorem tx_elapsed : (s.tx dst f).elapsed = s.elapsed := rfl
@[simp] theorem tx_rxQueue : (s.tx dst f).rxQueue = s.rxQueue := rfl
@[simp] theorem tx_out : (s.tx dst f).out = s.out ++ [.tx dst f.bytes] := rfl
@[simp] theorem tx_chunks : (s.tx dst f).chunks = s.chunks := rfl
@[simp] theorem tx_now : (s.tx dst f).now = s.now := rfl
@[simp] theorem tx_params : (s.tx dst f).params = s.params := rfl
@[simp] theorem tx_moves : (s.tx dst f).moves = s.moves := rfl

end

/-! ## sinkWrite -/

section
variable (s : State) (b : Bytes)

@[simp] theorem sinkWrite_lifecycle : (s.sinkWrite b).lifecycle = s.lifecycle := rfl
@[simp] theorem sinkWrite_phase : (s.sinkWrite b).phase = s.phase := rfl
@[simp] theorem sinkWrite_role : (s.sinkWrite b).role = s.role := rfl
@[simp] theorem sinkWrite_err : (s.sinkWrite b).err = s.err := rfl
@[simp] theorem sinkWrite_rxf : (s.sinkWrite b).rxf = s.rxf := rfl
@[simp] theorem sinkWrite_rxfSrc : (s.sinkWrite b).rxfSrc = s.rxfSrc := rfl
@[simp] theorem sinkWrite_txf : (s.sinkWrite b).txf = s.txf := rfl
@[simp] theorem sinkWrite_txfDst : (s.sinkWrite b).txfDst = s.txfDst := rfl
@[simp] theorem sinkWrite_base : (s.sinkWrite b).base = s.base := rfl
@[simp] theorem sinkWrite_nextSeq : (s.sinkWrite b).nextSeq = s.nextSeq := rfl
@[simp] theorem sinkWrite_total : (s.sinkWrite b).total = s.total := rfl
@[simp] theorem sinkWrite_rtx : (s.sinkWrite b).rtx = s.rtx := rfl
@[simp] theorem sinkWrite_expected : (s.sinkWrite b).expected = s.expected := rfl
@[simp] theorem sinkWrite_cfgWindow : (s.sinkWrite b).cfgWindow = s.cfgWindow := rfl
@[simp] theorem sinkWrite_peerWindow : (s.sinkWrite b).peerWindow = s.peerWindow := rfl
@[simp] theorem sinkWrite_negWindow : (s.sinkWrite b).negWindow = s.negWindow := rfl
@[simp] theorem sinkWrite_peer : (s.sinkWrite b).peer = s.peer := rfl
@[simp] theorem sinkWrite_dropSeq : (s.sinkWrite b).dropSeq = s.dropSeq := rfl
@[simp] theorem sinkWrite_dropArmed : (s.sinkWrite b).dropArmed = s.dropArmed := rfl
@[simp] theorem sinkWrite_timerArmed : (s.sinkWrite b).timerArmed = s.timerArmed := rfl
@[simp] theorem sinkWrite_bytes : (s.sinkWrite b).bytes = s.bytes := rfl
@[simp] theorem sinkWrite_t0 : (s.sinkWrite b).t0 = s.t0 := rfl
@[simp] theorem sinkWrite_elapsed : (s.sinkWrite b).elapsed = s.elapsed := rfl
@[simp] theorem sinkWrite_rxQueue : (s.sinkWrite b).rxQueue = s.rxQueue := rfl
@[simp] theorem sinkWrite_out : (s.sinkWrite b).out = s.out ++ [.sink b] := rfl
@[simp] theorem sinkWrite_chunks : (s.sinkWrite b).chunks = s.chunks := rfl
@[simp] theorem sinkWrite_now : (s.sinkWrite b).now = s.now := rfl
@[simp] theorem sinkWrite_params : (s.sinkWrite b).params = s.params := rfl
@[simp] theorem sinkWrite_moves : (s.sinkWrite b).moves = s.moves := rfl

end

/-! ## emit -/

section
variable (s : State) (e : TraceEvent)

@[simp] theorem emit_lifecycle : (s.emit e).lifecycle = s.lifecycle := rfl
@[simp] theorem emit_phase : (s.emit e).phase = s.phase := rfl
@[simp] theorem emit_role : (s.emit e).role = s.role := rfl
@[simp] theorem emit_err : (s.emit e).err = s.err := rfl
@[simp] theorem emit_rxf : (s.emit e).rxf = s.rxf := rfl
@[simp] theorem emit_rxfSrc : (s.emit e).rxfSrc = s.rxfSrc := rfl
@[simp] theorem emit_txf : (s.emit e).txf = s.txf := rfl
@[simp] theorem emit_txfDst : (s.emit e).txfDst = s.txfDst := rfl
@[simp] theorem emit_base : (s.emit e).base = s.base := rfl
@[simp] theorem emit_nextSeq : (s.emit e).nextSeq = s.nextSeq := rfl
@[simp] theorem emit_total : (s.emit e).total = s.total := rfl
@[simp] theorem emit_rtx : (s.emit e).rtx = s.rtx := rfl
@[simp] theorem emit_expected : (s.emit e).expected = s.expected := rfl
@[simp] theorem emit_cfgWindow : (s.emit e).cfgWindow = s.cfgWindow := rfl
@[simp] theorem emit_peerWindow : (s.emit e).peerWindow = s.peerWindow := rfl
@[simp] theorem emit_negWindow : (s.emit e).negWindow = s.negWindow := rfl
@[simp] theorem emit_peer : (s.emit e).peer = s.peer := rfl
@[simp] theorem emit_dropSeq : (s.emit e).dropSeq = s.dropSeq := rfl
@[simp] theorem emit_dropArmed : (s.emit e).dropArmed = s.dropArmed := rfl
@[simp] theorem emit_timerArmed : (s.emit e).timerArmed = s.timerArmed := rfl
@[simp] theorem emit_bytes : (s.emit e).bytes = s.bytes := rfl
@[simp] theorem emit_t0 : (s.emit e).t0 = s.t0 := rfl
@[simp] theorem emit_elapsed : (s.emit e).elapsed = s.elapsed := rfl
@[simp] theorem emit_rxQueue : (s.emit e).rxQueue = s.rxQueue := rfl
@[simp] theorem emit_out : (s.emit e).out = s.out ++ [.trace e] := rfl
@[simp] theorem emit_chunks : (s.emit e).chunks = s.chunks := rfl
@[simp] theorem emit_now : (s.emit e).now = s.now := rfl
@[simp] theorem emit_params : (s.emit e).params = s.params := rfl
@[simp] theorem emit_moves : (s.emit e).moves = s.moves := rfl

end

/-! ## post -/

section
variable (s : State) (r : CmdResult)

@[simp] theorem post_lifecycle : (s.post r).lifecycle = s.lifecycle := rfl
@[simp] theorem post_phase : (s.post r).phase = s.phase := rfl
@[simp] theorem post_role : (s.post r).role = s.role := rfl
@[simp] theorem post_err : (s.post r).err = s.err := rfl
@[simp] theorem post_rxf : (s.post r).rxf = s.rxf := rfl
@[simp] theorem post_rxfSrc : (s.post r).rxfSrc = s.rxfSrc := rfl
@[simp] theorem post_txf : (s.post r).txf = s.txf := rfl
@[simp] theorem post_txfDst : (s.post r).txfDst = s.txfDst := rfl
@[simp] theorem post_base : (s.post r).base = s.base := rfl
@[simp] theorem post_nextSeq : (s.post r).nextSeq = s.nextSeq := rfl
@[simp] theorem post_total : (s.post r).total = s.total := rfl
@[simp] theorem post_rtx : (s.post r).rtx = s.rtx := rfl
@[simp] theorem post_expected : (s.post r).expected = s.expected := rfl
@[simp] theorem post_cfgWindow : (s.post r).cfgWindow = s.cfgWindow := rfl
@[simp] theorem post_peerWindow : (s.post r).peerWindow = s.peerWindow := rfl
@[simp] theorem post_negWindow : (s.post r).negWindow = s.negWindow := rfl
@[simp] theorem post_peer : (s.post r).peer = s.peer := rfl
@[simp] theorem post_dropSeq : (s.post r).dropSeq = s.dropSeq := rfl
@[simp] theorem post_dropArmed : (s.post r).dropArmed = s.dropArmed := rfl
@[simp] theorem post_timerArmed : (s.post r).timerArmed = s.timerArmed := rfl
@[simp] theorem post_bytes : (s.post r).bytes = s.bytes := rfl
@[simp] theorem post_t0 : (s.post r).t0 = s.t0 := rfl
@[simp] theorem post_elapsed : (s.post r).elapsed = s.elapsed := rfl
@[simp] theorem post_rxQueue : (s.post r).rxQueue = s.rxQueue := rfl
@[simp] theorem post_out : (s.post r).out = s.out ++ [.result r] := rfl
@[simp] theorem post_chunks : (s.post r).chunks = s.chunks := rfl
@[simp] theorem post_now : (s.post r).now = s.now := rfl
@[simp] theorem post_params : (s.post r).params = s.params := rfl
@[simp] theorem post_moves : (s.post r).moves = s.moves := rfl

end

/-! ## timerArm -/

section
variable (s : State)

@[simp] theorem timerArm_lifecycle : (s.timerArm).lifecycle = s.lifecycle := rfl
@[simp] theorem timerArm_phase : (s.timerArm).phase = s.phase := rfl
@[simp] theorem timerArm_role : (s.timerArm).role = s.role := rfl
@[simp] theorem timerArm_err : (s.timerArm).err = s.err := rfl
@[simp] theorem timerArm_rxf : (s.timerArm).rxf = s.rxf := rfl
@[simp] theorem timerArm_rxfSrc : (s.timerArm).rxfSrc = s.rxfSrc := rfl
@[simp] theorem timerArm_txf : (s.timerArm).txf = s.txf := rfl
@[simp] theorem timerArm_txfDst : (s.timerArm).txfDst = s.txfDst := rfl
@[simp] theorem timerArm_base : (s.timerArm).base = s.base := rfl
@[simp] theorem timerArm_nextSeq : (s.timerArm).nextSeq = s.nextSeq := rfl
@[simp] theorem timerArm_total : (s.timerArm).total = s.total := rfl
@[simp] theorem timerArm_rtx : (s.timerArm).rtx = s.rtx := rfl
@[simp] theorem timerArm_expected : (s.timerArm).expected = s.expected := rfl
@[simp] theorem timerArm_cfgWindow : (s.timerArm).cfgWindow = s.cfgWindow := rfl
@[simp] theorem timerArm_peerWindow : (s.timerArm).peerWindow = s.peerWindow := rfl
@[simp] theorem timerArm_negWindow : (s.timerArm).negWindow = s.negWindow := rfl
@[simp] theorem timerArm_peer : (s.timerArm).peer = s.peer := rfl
@[simp] theorem timerArm_dropSeq : (s.timerArm).dropSeq = s.dropSeq := rfl
@[simp] theorem timerArm_dropArmed : (s.timerArm).dropArmed = s.dropArmed := rfl
@[simp] theorem timerArm_timerArmed : (s.timerArm).timerArmed = true := rfl
@[simp] theorem timerArm_bytes : (s.timerArm).bytes = s.bytes := rfl
@[simp] theorem timerArm_t0 : (s.timerArm).t0 = s.t0 := rfl
@[simp] theorem timerArm_elapsed : (s.timerArm).elapsed = s.elapsed := rfl
@[simp] theorem timerArm_rxQueue : (s.timerArm).rxQueue = s.rxQueue := rfl
@[simp] theorem timerArm_out : (s.timerArm).out = s.out := rfl
@[simp] theorem timerArm_chunks : (s.timerArm).chunks = s.chunks := rfl
@[simp] theorem timerArm_now : (s.timerArm).now = s.now := rfl
@[simp] theorem timerArm_params : (s.timerArm).params = s.params := rfl
@[simp] theorem timerArm_moves : (s.timerArm).moves = s.moves := rfl

end

/-! ## timerDisarm -/

section
variable (s : State)

@[simp] theorem timerDisarm_lifecycle : (s.timerDisarm).lifecycle = s.lifecycle := rfl
@[simp] theorem timerDisarm_phase : (s.timerDisarm).phase = s.phase := rfl
@[simp] theorem timerDisarm_role : (s.timerDisarm).role = s.role := rfl
@[simp] theorem timerDisarm_err : (s.timerDisarm).err = s.err := rfl
@[simp] theorem timerDisarm_rxf : (s.timerDisarm).rxf = s.rxf := rfl
@[simp] theorem timerDisarm_rxfSrc : (s.timerDisarm).rxfSrc = s.rxfSrc := rfl
@[simp] theorem timerDisarm_txf : (s.timerDisarm).txf = s.txf := rfl
@[simp] theorem timerDisarm_txfDst : (s.timerDisarm).txfDst = s.txfDst := rfl
@[simp] theorem timerDisarm_base : (s.timerDisarm).base = s.base := rfl
@[simp] theorem timerDisarm_nextSeq : (s.timerDisarm).nextSeq = s.nextSeq := rfl
@[simp] theorem timerDisarm_total : (s.timerDisarm).total = s.total := rfl
@[simp] theorem timerDisarm_rtx : (s.timerDisarm).rtx = s.rtx := rfl
@[simp] theorem timerDisarm_expected : (s.timerDisarm).expected = s.expected := rfl
@[simp] theorem timerDisarm_cfgWindow : (s.timerDisarm).cfgWindow = s.cfgWindow := rfl
@[simp] theorem timerDisarm_peerWindow : (s.timerDisarm).peerWindow = s.peerWindow := rfl
@[simp] theorem timerDisarm_negWindow : (s.timerDisarm).negWindow = s.negWindow := rfl
@[simp] theorem timerDisarm_peer : (s.timerDisarm).peer = s.peer := rfl
@[simp] theorem timerDisarm_dropSeq : (s.timerDisarm).dropSeq = s.dropSeq := rfl
@[simp] theorem timerDisarm_dropArmed : (s.timerDisarm).dropArmed = s.dropArmed := rfl
@[simp] theorem timerDisarm_timerArmed : (s.timerDisarm).timerArmed = false := rfl
@[simp] theorem timerDisarm_bytes : (s.timerDisarm).bytes = s.bytes := rfl
@[simp] theorem timerDisarm_t0 : (s.timerDisarm).t0 = s.t0 := rfl
@[simp] theorem timerDisarm_elapsed : (s.timerDisarm).elapsed = s.elapsed := rfl
@[simp] theorem timerDisarm_rxQueue : (s.timerDisarm).rxQueue = s.rxQueue := rfl
@[simp] theorem timerDisarm_out : (s.timerDisarm).out = s.out := rfl
@[simp] theorem timerDisarm_chunks : (s.timerDisarm).chunks = s.chunks := rfl
@[simp] theorem timerDisarm_now : (s.timerDisarm).now = s.now := rfl
@[simp] theorem timerDisarm_params : (s.timerDisarm).params = s.params := rfl
@[simp] theorem timerDisarm_moves : (s.timerDisarm).moves = s.moves := rfl

end

/-! ## goto -/

section
variable (s : State) (l : Lifecycle) (p : Phase)

@[simp] theorem goto_lifecycle : (s.goto l p).lifecycle = l := rfl
@[simp] theorem goto_phase : (s.goto l p).phase = p := rfl
@[simp] theorem goto_role : (s.goto l p).role = s.role := rfl
@[simp] theorem goto_err : (s.goto l p).err = s.err := rfl
@[simp] theorem goto_rxf : (s.goto l p).rxf = s.rxf := rfl
@[simp] theorem goto_rxfSrc : (s.goto l p).rxfSrc = s.rxfSrc := rfl
@[simp] theorem goto_txf : (s.goto l p).txf = s.txf := rfl
@[simp] theorem goto_txfDst : (s.goto l p).txfDst = s.txfDst := rfl
@[simp] theorem goto_base : (s.goto l p).base = s.base := rfl
@[simp] theorem goto_nextSeq : (s.goto l p).nextSeq = s.nextSeq := rfl
@[simp] theorem goto_total : (s.goto l p).total = s.total := rfl
@[simp] theorem goto_rtx : (s.goto l p).rtx = s.rtx := rfl
@[simp] theorem goto_expected : (s.goto l p).expected = s.expected := rfl
@[simp] theorem goto_cfgWindow : (s.goto l p).cfgWindow = s.cfgWindow := rfl
@[simp] theorem goto_peerWindow : (s.goto l p).peerWindow = s.peerWindow := rfl
@[simp] theorem goto_negWindow : (s.goto l p).negWindow = s.negWindow := rfl
@[simp] theorem goto_peer : (s.goto l p).peer = s.peer := rfl
@[simp] theorem goto_dropSeq : (s.goto l p).dropSeq = s.dropSeq := rfl
@[simp] theorem goto_dropArmed : (s.goto l p).dropArmed = s.dropArmed := rfl
@[simp] theorem goto_timerArmed : (s.goto l p).timerArmed = s.timerArmed := rfl
@[simp] theorem goto_bytes : (s.goto l p).bytes = s.bytes := rfl
@[simp] theorem goto_t0 : (s.goto l p).t0 = s.t0 := rfl
@[simp] theorem goto_elapsed : (s.goto l p).elapsed = s.elapsed := rfl
@[simp] theorem goto_rxQueue : (s.goto l p).rxQueue = s.rxQueue := rfl
@[simp] theorem goto_out : (s.goto l p).out = s.out := rfl
@[simp] theorem goto_chunks : (s.goto l p).chunks = s.chunks := rfl
@[simp] theorem goto_now : (s.goto l p).now = s.now := rfl
@[simp] theorem goto_params : (s.goto l p).params = s.params := rfl
@[simp] theorem goto_moves : (s.goto l p).moves = s.moves := rfl

end

/-! ## startClock -/

section
variable (s : State)

@[simp] theorem startClock_lifecycle : (s.startClock).lifecycle = s.lifecycle := rfl
@[simp] theorem startClock_phase : (s.startClock).phase = s.phase := rfl
@[simp] theorem startClock_role : (s.startClock).role = s.role := rfl
@[simp] theorem startClock_err : (s.startClock).err = s.err := rfl
@[simp] theorem startClock_rxf : (s.startClock).rxf = s.rxf := rfl
@[simp] theorem startClock_rxfSrc : (s.startClock).rxfSrc = s.rxfSrc := rfl
@[simp] theorem startClock_txf : (s.startClock).txf = s.txf := rfl
@[simp] theorem startClock_txfDst : (s.startClock).txfDst = s.txfDst := rfl
@[simp] theorem startClock_base : (s.startClock).base = s.base := rfl
@[simp] theorem startClock_nextSeq : (s.startClock).nextSeq = s.nextSeq := rfl
@[simp] theorem startClock_total : (s.startClock).total = s.total := rfl
@[simp] theorem startClock_rtx : (s.startClock).rtx = s.rtx := rfl
@[simp] theorem startClock_expected : (s.startClock).expected = s.expected := rfl
@[simp] theorem startClock_cfgWindow : (s.startClock).cfgWindow = s.cfgWindow := rfl
@[simp] theorem startClock_peerWindow : (s.startClock).peerWindow = s.peerWindow := rfl
@[simp] theorem startClock_negWindow : (s.startClock).negWindow = s.negWindow := rfl
@[simp] theorem startClock_peer : (s.startClock).peer = s.peer := rfl
@[simp] theorem startClock_dropSeq : (s.startClock).dropSeq = s.dropSeq := rfl
@[simp] theorem startClock_dropArmed : (s.startClock).dropArmed = s.dropArmed := rfl
@[simp] theorem startClock_timerArmed : (s.startClock).timerArmed = s.timerArmed := rfl
@[simp] theorem startClock_bytes : (s.startClock).bytes = s.bytes := rfl
@[simp] theorem startClock_t0 : (s.startClock).t0 = s.now := rfl
@[simp] theorem startClock_elapsed : (s.startClock).elapsed = s.elapsed := rfl
@[simp] theorem startClock_rxQueue : (s.startClock).rxQueue = s.rxQueue := rfl
@[simp] theorem startClock_out : (s.startClock).out = s.out := rfl
@[simp] theorem startClock_chunks : (s.startClock).chunks = s.chunks := rfl
@[simp] theorem startClock_now : (s.startClock).now = s.now := rfl
@[simp] theorem startClock_params : (s.startClock).params = s.params := rfl
@[simp] theorem startClock_moves : (s.startClock).moves = s.moves := rfl

end

/-! ## stopClock -/

section
variable (s : State)

@[simp] theorem stopClock_lifecycle : (s.stopClock).lifecycle = s.lifecycle := rfl
@[simp] theorem stopClock_phase : (s.stopClock).phase = s.phase := rfl
@[simp] theorem stopClock_role : (s.stopClock).role = s.role := rfl
@[simp] theorem stopClock_err : (s.stopClock).err = s.err := rfl
@[simp] theorem stopClock_rxf : (s.stopClock).rxf = s.rxf := rfl
@[simp] theorem stopClock_rxfSrc : (s.stopClock).rxfSrc = s.rxfSrc := rfl
@[simp] theorem stopClock_txf : (s.stopClock).txf = s.txf := rfl
@[simp] theorem stopClock_txfDst : (s.stopClock).txfDst = s.txfDst := rfl
@[simp] theorem stopClock_base : (s.stopClock).base = s.base := rfl
@[simp] theorem stopClock_nextSeq : (s.stopClock).nextSeq = s.nextSeq := rfl
@[simp] theorem stopClock_total : (s.stopClock).total = s.total := rfl
@[simp] theorem stopClock_rtx : (s.stopClock).rtx = s.rtx := rfl
@[simp] theorem stopClock_expected : (s.stopClock).expected = s.expected := rfl
@[simp] theorem stopClock_cfgWindow : (s.stopClock).cfgWindow = s.cfgWindow := rfl
@[simp] theorem stopClock_peerWindow : (s.stopClock).peerWindow = s.peerWindow := rfl
@[simp] theorem stopClock_negWindow : (s.stopClock).negWindow = s.negWindow := rfl
@[simp] theorem stopClock_peer : (s.stopClock).peer = s.peer := rfl
@[simp] theorem stopClock_dropSeq : (s.stopClock).dropSeq = s.dropSeq := rfl
@[simp] theorem stopClock_dropArmed : (s.stopClock).dropArmed = s.dropArmed := rfl
@[simp] theorem stopClock_timerArmed : (s.stopClock).timerArmed = s.timerArmed := rfl
@[simp] theorem stopClock_bytes : (s.stopClock).bytes = s.bytes := rfl
@[simp] theorem stopClock_t0 : (s.stopClock).t0 = s.t0 := rfl
@[simp] theorem stopClock_elapsed : (s.stopClock).elapsed = s.params.minus s.now s.t0 := rfl
@[simp] theorem stopClock_rxQueue : (s.stopClock).rxQueue = s.rxQueue := rfl
@[simp] theorem stopClock_out : (s.stopClock).out = s.out := rfl
@[simp] theorem stopClock_chunks : (s.stopClock).chunks = s.chunks := rfl
@[simp] theorem stopClock_now : (s.stopClock).now = s.now := rfl
@[simp] theorem stopClock_params : (s.stopClock).params = s.params := rfl
@[simp] theorem stopClock_moves : (s.stopClock).moves = s.moves := rfl

end

/-! ## refuse -/

section
variable (s : State)

@[simp] theorem refuse_lifecycle : (refuse s).lifecycle = s.lifecycle := rfl
@[simp] theorem refuse_phase : (refuse s).phase = s.phase := rfl
@[simp] theorem refuse_role : (refuse s).role = s.role := rfl
@[simp] theorem refuse_err : (refuse s).err = s.err := rfl
@[simp] theorem refuse_rxf : (refuse s).rxf = s.rxf := rfl
@[simp] theorem refuse_rxfSrc : (refuse s).rxfSrc = s.rxfSrc := rfl
@[simp] theorem refuse_txf : (refuse s).txf = s.txf := rfl
@[simp] theorem refuse_txfDst : (refuse s).txfDst = s.txfDst := rfl
@[simp] theorem refuse_base : (refuse s).base = s.base := rfl
@[simp] theorem refuse_nextSeq : (refuse s).nextSeq = s.nextSeq := rfl
@[simp] theorem refuse_total : (refuse s).total = s.total := rfl
@[simp] theorem refuse_rtx : (refuse s).rtx = s.rtx := rfl
@[simp] theorem refuse_expected : (refuse s).expected = s.expected := rfl
@[simp] theorem refuse_cfgWindow : (refuse s).cfgWindow = s.cfgWindow := rfl
@[simp] theorem refuse_peerWindow : (refuse s).peerWindow = s.peerWindow := rfl
@[simp] theorem refuse_negWindow : (refuse s).negWindow = s.negWindow := rfl
@[simp] theorem refuse_peer : (refuse s).peer = s.peer := rfl
@[simp] theorem refuse_dropSeq : (refuse s).dropSeq = s.dropSeq := rfl
@[simp] theorem refuse_dropArmed : (refuse s).dropArmed = s.dropArmed := rfl
@[simp] theorem refuse_timerArmed : (refuse s).timerArmed = s.timerArmed := rfl
@[simp] theorem refuse_bytes : (refuse s).bytes = s.bytes := rfl
@[simp] theorem refuse_t0 : (refuse s).t0 = s.t0 := rfl
@[simp] theorem refuse_elapsed : (refuse s).elapsed = s.elapsed := rfl
@[simp] theorem refuse_rxQueue : (refuse s).rxQueue = s.rxQueue := rfl
@[simp] theorem refuse_out : (refuse s).out = s.out ++ [.result (.err .cmdRefused)] := rfl
@[simp] theorem refuse_chunks : (refuse s).chunks = s.chunks := rfl
@[simp] theorem refuse_now : (refuse s).now = s.now := rfl
@[simp] theorem refuse_params : (refuse s).params = s.params := rfl
@[simp] theorem refuse_moves : (refuse s).moves = s.moves := rfl

end

/-! ## raiseFatal -/

section
variable (s : State) (e : ErrCode)

@[simp] theorem raiseFatal_lifecycle : (raiseFatal e s).lifecycle = .closed := rfl
@[simp] theorem raiseFatal_phase : (raiseFatal e s).phase = .none := rfl
@[simp] theorem raiseFatal_role : (raiseFatal e s).role = s.role := rfl
@[simp] theorem raiseFatal_err : (raiseFatal e s).err = e := rfl
@[simp] theorem raiseFatal_rxf : (raiseFatal e s).rxf = s.rxf := rfl
@[simp] theorem raiseFatal_rxfSrc : (raiseFatal e s).rxfSrc = s.rxfSrc := rfl
@[simp] theorem raiseFatal_txf : (raiseFatal e s).txf = s.txf := rfl
@[simp] theorem raiseFatal_txfDst : (raiseFatal e s).txfDst = s.txfDst := rfl
@[simp] theorem raiseFatal_base : (raiseFatal e s).base = s.base := rfl
@[simp] theorem raiseFatal_nextSeq : (raiseFatal e s).nextSeq = s.nextSeq := rfl
@[simp] theorem raiseFatal_total : (raiseFatal e s).total = s.total := rfl
@[simp] theorem raiseFatal_rtx : (raiseFatal e s).rtx = s.rtx := rfl
@[simp] theorem raiseFatal_expected : (raiseFatal e s).expected = s.expected := rfl
@[simp] theorem raiseFatal_cfgWindow : (raiseFatal e s).cfgWindow = s.cfgWindow := rfl
@[simp] theorem raiseFatal_peerWindow : (raiseFatal e s).peerWindow = s.peerWindow := rfl
@[simp] theorem raiseFatal_negWindow : (raiseFatal e s).negWindow = s.negWindow := rfl
@[simp] theorem raiseFatal_peer : (raiseFatal e s).peer = s.peer := rfl
@[simp] theorem raiseFatal_dropSeq : (raiseFatal e s).dropSeq = s.dropSeq := rfl
@[simp] theorem raiseFatal_dropArmed : (raiseFatal e s).dropArmed = s.dropArmed := rfl
@[simp] theorem raiseFatal_timerArmed : (raiseFatal e s).timerArmed = false := rfl
@[simp] theorem raiseFatal_bytes : (raiseFatal e s).bytes = s.bytes := rfl
@[simp] theorem raiseFatal_t0 : (raiseFatal e s).t0 = s.t0 := rfl
@[simp] theorem raiseFatal_elapsed : (raiseFatal e s).elapsed = if timed s.phase then s.params.minus s.now s.t0 else s.elapsed := rfl
@[simp] theorem raiseFatal_rxQueue : (raiseFatal e s).rxQueue = s.rxQueue := rfl
@[simp] theorem raiseFatal_out : (raiseFatal e s).out = s.out ++ [.result (failResult e s.phase { s with elapsed := if timed s.phase then s.params.minus s.now s.t0 else s.elapsed })] := rfl
@[simp] theorem raiseFatal_chunks : (raiseFatal e s).chunks = s.chunks := rfl
@[simp] theorem raiseFatal_now : (raiseFatal e s).now = s.now := rfl
@[simp] theorem raiseFatal_params : (raiseFatal e s).params = s.params := rfl
@[simp] theorem raiseFatal_moves : (raiseFatal e s).moves = s.moves := rfl

end

@[simp] theorem stats_eq (s : State) : s.stats = ⟨s.bytes, s.elapsed⟩ := rfl

@[simp] theorem rxfPlen_eq (s : State) : s.rxfPlen = s.rxf.payload.length := rfl

end Sys2Proof.Machine
end

