-- ==== Sys2Proof/Laws/Rules.lean ====
section
/-! SUPPORT. What each rule function does, case by case, so that a proof cites a case and never unfolds the function. -/

namespace Sys2Proof.Machine

/-! ## Arithmetic -/

/-- min16 is the minimum (spec/00_scope.md R16 (d)). -/
theorem min16_eq {a b w : U16} (h : w.toNat = min a.toNat b.toNat) : min16 a b = w := by
  apply BitVec.eq_of_toNat_eq; unfold min16; split <;> omega

theorem min16_toNat (a b : U16) : (min16 a b).toNat = min a.toNat b.toNat := by
  unfold min16; split <;> omega

@[simp] theorem zext17_toNat (a : U16) : (zext17 a).toNat = a.toNat := by
  have := a.isLt
  simp [zext17]; omega

/-- `A + 1` in 17 bits never wraps (spec/00_scope.md R16 (b)). -/
theorem zext17_succ (a : U16) : zext17 a + 1 = BitVec.ofNat 17 (a.toNat + 1) := by
  have := a.isLt
  apply BitVec.eq_of_toNat_eq; simp [zext17]

theorem low16_toNat (c : U17) : (low16 c).toNat = c.toNat % 65536 := by
  simp [low16]

theorem low16_ofNat {c : U17} : low16 c = BitVec.ofNat 16 c.toNat := by
  apply BitVec.eq_of_toNat_eq; simp [low16]

/-! ## Lifecycle -/

theorem onClientReply_synack {s : State} (h1 : synBit s.rxf = true) (h2 : ackBit s.rxf = true) :
    onClientReply s =
      ((({ s.timerDisarm with peerWindow := s.rxf.window, negWindow := min16 s.cfgWindow s.rxf.window }).tx s.peer
        (ackControlFrame s.rxf.seq)).goto .established .none).post (.okWindow (min16 s.cfgWindow s.rxf.window)) :=
  if_pos ⟨h1, h2⟩

theorem onClientReply_other {s : State} (h : ¬ (synBit s.rxf = true ∧ ackBit s.rxf = true)) :
    onClientReply s = raiseFatal .handshakeProtocolError s := if_neg h

theorem onServerListen_syn {s : State} (h : synBit s.rxf = true) :
    onServerListen s =
      (({ s with peer := s.rxfSrc }).tx s.rxfSrc (synackFrame s.rxf.seq s.params.advWindow)).goto .synRcvd .hsWait :=
  if_pos h

theorem onServerListen_other {s : State} (h : synBit s.rxf = false) :
    onServerListen s = raiseFatal .handshakeProtocolError s := if_neg (by simp [h])

theorem onServerThird_ack {s : State} (h : ackBit s.rxf = true) :
    onServerThird s = (({ s with peer := s.rxfSrc }).goto .established .none).post (.okPeer s.rxfSrc) := if_pos h

theorem onServerThird_other {s : State} (h : ackBit s.rxf = false) :
    onServerThird s = raiseFatal .handshakeProtocolError s := if_neg (by simp [h])

theorem onClientClose_ack {s : State} (h : ackBit s.rxf = true) :
    onClientClose s = (s.timerDisarm.goto .closed .none).post .okClosed := if_pos h

theorem onClientClose_other {s : State} (h : ackBit s.rxf = false) : onClientClose s = s := if_neg (by simp [h])

/-! ## Sender -/

theorem fillStep_done {s : State} (h : s.total.toNat < s.base.toNat) : fillStep s = sendDone s := if_pos h

theorem fillStep_send {s : State} (h1 : s.base.toNat ≤ s.total.toNat)
    (h2 : s.nextSeq.toNat < s.base.toNat + s.negWindow.toNat) (h3 : s.nextSeq.toNat ≤ s.total.toNat) :
    fillStep s = sendNew s := by
  rw [fillStep, if_neg (by omega), if_pos ⟨h2, h3⟩]

theorem fillStep_wait {s : State} (h1 : s.base.toNat ≤ s.total.toNat)
    (h2 : s.base.toNat + s.negWindow.toNat ≤ s.nextSeq.toNat ∨ s.total.toNat < s.nextSeq.toNat) :
    fillStep s = enterWait s := by
  rw [fillStep, if_neg (by omega), if_neg (by omega)]

theorem sendNew_ok {s : State} (h : (chunkRead s.chunks s.nextSeq.toNat).length ≤ 992) :
    sendNew s =
      { (s.tx s.peer (dataFrame s.nextSeq s.negWindow (chunkRead s.chunks s.nextSeq.toNat))).emit
          (.sent (low16 s.nextSeq) s.base (s.nextSeq + 1)) with nextSeq := s.nextSeq + 1 } :=
  if_neg (Nat.not_lt.2 h)

theorem sendNew_overlong {s : State} (h : 992 < (chunkRead s.chunks s.nextSeq.toNat).length) :
    sendNew s = raiseFatal .invalidPayload s := if_pos h

theorem resend_ok {s : State} (h : (chunkRead s.chunks s.rtx.toNat).length ≤ 992) :
    resend s =
      { (s.tx s.peer (dataFrame s.rtx s.negWindow (chunkRead s.chunks s.rtx.toNat))).emit
          (.retransmitted (low16 s.rtx) s.base s.nextSeq) with rtx := s.rtx + 1 } :=
  if_neg (Nat.not_lt.2 h)

theorem resend_overlong {s : State} (h : 992 < (chunkRead s.chunks s.rtx.toNat).length) :
    resend s = raiseFatal .invalidPayload s := if_pos h

theorem retxStep_more {s : State} (h : s.rtx.toNat < s.nextSeq.toNat) : retxStep s = resend s := if_pos h

theorem retxStep_end {s : State} (h : s.nextSeq.toNat ≤ s.rtx.toNat) : retxStep s = enterWait s :=
  if_neg (Nat.not_lt.2 h)

theorem applyAck_moves {a : U16} {s : State} (h1 : s.base.toNat ≤ a.toNat) (h2 : a.toNat < s.nextSeq.toNat) :
    applyAck a s =
      { s with bytes := addBytes s.bytes (chunkBytes s.chunks s.base.toNat a.toNat), base := zext17 a + 1 } :=
  if_pos ⟨h1, h2⟩

theorem applyAck_stale {a : U16} {s : State} (h : a.toNat < s.base.toNat ∨ s.nextSeq.toNat ≤ a.toNat) :
    applyAck a s = s := if_neg (by omega)

theorem onSenderAck_ack {s : State} (h : ackBit s.rxf = true) :
    onSenderAck s = { (applyAck s.rxf.ack s.timerDisarm).emit (.ackReceived s.rxf.ack) with phase := .fill } :=
  if_pos h

theorem onSenderAck_other {s : State} (h : ackBit s.rxf = false) : onSenderAck s = s := if_neg (by simp [h])

/-! ## Receiver -/

theorem onReceiver_fin {s : State} (h : finBit s.rxf = true) : onReceiver s = recvFin s := if_pos h

theorem onReceiver_drop {s : State} (h : finBit s.rxf = false) (h1 : s.dropArmed = true) (h2 : s.rxf.seq = s.dropSeq) :
    onReceiver s = recvDrop s := by
  rw [onReceiver, if_neg (by simp [h]), if_pos ⟨h1, h2⟩]

theorem onReceiver_accept {s : State} (h : finBit s.rxf = false) (h1 : s.dropArmed = false ∨ s.rxf.seq ≠ s.dropSeq)
    (h2 : s.rxf.seq.toNat = s.expected.toNat) : onReceiver s = recvAccept s := by
  rw [onReceiver, if_neg (by simp [h]), if_neg (by rcases h1 with h1 | h1 <;> simp [h1]),
    if_pos (BitVec.eq_of_toNat_eq (by simpa using h2))]

theorem onReceiver_discard {s : State} (h : finBit s.rxf = false) (h1 : s.dropArmed = false ∨ s.rxf.seq ≠ s.dropSeq)
    (h2 : s.rxf.seq.toNat ≠ s.expected.toNat) : onReceiver s = recvDiscard s := by
  rw [onReceiver, if_neg (by simp [h]), if_neg (by rcases h1 with h1 | h1 <;> simp [h1]),
    if_neg (fun h3 => h2 (by simpa using congrArg BitVec.toNat h3))]

/-! ## Events -/

theorem timerExpiry_disarmed {s : State} (h : s.timerArmed = false) : timerExpiry s = s := if_neg (by simp [h])

theorem timerExpiry_handshake {s : State} (h : s.timerArmed = true) (h1 : s.lifecycle = .synSent)
    (h2 : s.phase = .hsWait) : timerExpiry s = raiseFatal .handshakeTimeout s := by
  simp only [timerExpiry, h, if_true, h1, h2]

theorem timerExpiry_wait {s : State} (h : s.timerArmed = true) (h2 : s.phase = .wait) : timerExpiry s = goBackN s := by
  simp only [timerExpiry, h, if_true]; cases s.lifecycle <;> simp only [h2]

theorem timerExpiry_close {s : State} (h : s.timerArmed = true) (h1 : s.lifecycle = .finSent)
    (h2 : s.phase = .finWait) : timerExpiry s = teardownExpiry s := by
  simp only [timerExpiry, h, if_true, h1, h2]

theorem socketFailure_idle {s : State} (h : s.phase = .none) : socketFailure s = s := if_pos h

theorem socketFailure_busy {s : State} (h : s.phase ≠ .none) : socketFailure s = raiseFatal .socketError s := if_neg h

end Sys2Proof.Machine
end

