-- ==== Sys2Proof/Laws/Outputs.lean ====
section
/-! SUPPORT. The views of the output history: what each one reads of an output that is appended. -/

namespace Sys2Proof.Machine

@[simp] theorem txHistory_nil : txHistory [] = [] := rfl

@[simp] theorem txHistory_tx (d : Addr) (b : Bytes) (o : List Output) :
    txHistory (.tx d b :: o) = (d, b) :: txHistory o := rfl

@[simp] theorem txHistory_sink (b : Bytes) (o : List Output) : txHistory (.sink b :: o) = txHistory o := rfl

@[simp] theorem txHistory_trace (e : TraceEvent) (o : List Output) : txHistory (.trace e :: o) = txHistory o := rfl

@[simp] theorem txHistory_result (r : CmdResult) (o : List Output) : txHistory (.result r :: o) = txHistory o := rfl

@[simp] theorem txHistory_append (o p : List Output) : txHistory (o ++ p) = txHistory o ++ txHistory p := by
  simp [txHistory]

@[simp] theorem sinkChunks_nil : sinkChunks [] = [] := rfl

@[simp] theorem sinkChunks_sink (b : Bytes) (o : List Output) : sinkChunks (.sink b :: o) = b :: sinkChunks o := rfl

@[simp] theorem sinkChunks_tx (d : Addr) (b : Bytes) (o : List Output) :
    sinkChunks (.tx d b :: o) = sinkChunks o := rfl

@[simp] theorem sinkChunks_trace (e : TraceEvent) (o : List Output) :
    sinkChunks (.trace e :: o) = sinkChunks o := rfl

@[simp] theorem sinkChunks_result (r : CmdResult) (o : List Output) :
    sinkChunks (.result r :: o) = sinkChunks o := rfl

@[simp] theorem sinkChunks_append (o p : List Output) : sinkChunks (o ++ p) = sinkChunks o ++ sinkChunks p := by
  simp [sinkChunks]

@[simp] theorem results_nil : results [] = [] := rfl

@[simp] theorem results_result (r : CmdResult) (o : List Output) : results (.result r :: o) = r :: results o := rfl

@[simp] theorem results_tx (d : Addr) (b : Bytes) (o : List Output) : results (.tx d b :: o) = results o := rfl

@[simp] theorem results_sink (b : Bytes) (o : List Output) : results (.sink b :: o) = results o := rfl

@[simp] theorem results_trace (e : TraceEvent) (o : List Output) : results (.trace e :: o) = results o := rfl

@[simp] theorem results_append (o p : List Output) : results (o ++ p) = results o ++ results p := by
  simp [results]

@[simp] theorem txSeqs_nil : txSeqs [] = [] := rfl

@[simp] theorem txSeqs_append (o p : List Output) : txSeqs (o ++ p) = txSeqs o ++ txSeqs p := by
  simp [txSeqs]

/-- The two bytes of a field read back as the field. -/
@[simp] theorem unbe16_be16 (v : U16) :
    unbe16 (BitVec.ofNat 8 (v.toNat / 256)) (BitVec.ofNat 8 (v.toNat % 256)) = v := by
  apply BitVec.eq_of_toNat_eq
  have := v.isLt
  simp only [unbe16, BitVec.toNat_ofNat]
  omega

/-- The sequence number of a frame's bytes is its sequence field. -/
theorem txSeqs_tx (d : Addr) (f : Frame) (o : List Output) : txSeqs (.tx d f.bytes :: o) = f.seq.toNat :: txSeqs o := by
  simp [txSeqs, Frame.bytes, be16, codecDecode]

@[simp] theorem txSeqs_trace (e : TraceEvent) (o : List Output) : txSeqs (.trace e :: o) = txSeqs o := rfl

@[simp] theorem txSeqs_result (r : CmdResult) (o : List Output) : txSeqs (.result r :: o) = txSeqs o := rfl

@[simp] theorem txSeqs_sink (b : Bytes) (o : List Output) : txSeqs (.sink b :: o) = txSeqs o := rfl

/-- A frame's bytes are 8 more than its payload. -/
@[simp] theorem frame_bytes_length (f : Frame) : f.bytes.length = 8 + f.payload.length := by
  simp [Frame.bytes, be16]; omega

end Sys2Proof.Machine
end

