-- ==== Sys2Proof/Laws/Step.lean ====
section
/-! SUPPORT. What a step can do, said once: the meaning of any frame instruction is `receive`, a step with a datagram at
the head of a waiting engine's RX queue is `receive` of its frame, and every step that answers a next state is one of the
cases of `step_cases`. -/

namespace Sys2Proof.Machine

/-! ## Frames -/

theorem receive_waiting {s : State} {w : Wait} (h : waitOf s.lifecycle s.phase = some w) (f : Frame) (src : Addr) :
    receive f src s = onFrame w (s.takeFrame f src) := by
  simp [receive, h]

theorem receive_pending {s : State} (h : waitOf s.lifecycle s.phase = none) (f : Frame) (src : Addr) :
    receive f src s = s := by
  simp [receive, h]

/-- The state in which each wait is entered. -/
theorem waitOf_eq_some {l : Lifecycle} {p : Phase} {w : Wait} (h : waitOf l p = some w) :
    (w = .clientReply ∧ l = .synSent ∧ p = .hsWait) ∨ (w = .serverListen ∧ l = .idle ∧ p = .listen) ∨
    (w = .serverThird ∧ l = .synRcvd ∧ p = .hsWait) ∨ (w = .senderAck ∧ l = .established ∧ p = .wait) ∨
    (w = .clientClose ∧ l = .finSent ∧ p = .finWait) ∨ (w = .receiver ∧ l = .established ∧ p = .recv) := by
  revert h; cases l <;> cases p <;> simp [waitOf] <;> rintro rfl <;> simp

/-- The frame kind instruction a frame decodes to runs as `receive` of that very frame. -/
theorem exec_frameInstr {f : Frame} {src : Addr} {i : Instr} (h : frameInstr f src = .ok i) (s : State) :
    exec i s = .next (receive f src s) := by
  obtain ⟨sq, ak, fl, win, p⟩ := f
  unfold frameInstr Frame.kind at h
  by_cases h1 : fl = flagsSyn
  · subst h1; simp at h; subst h; rfl
  by_cases h2 : fl = flagsSynack
  · subst h2; simp [h1] at h; subst h; rfl
  by_cases h3 : fl = flagsAck
  · subst h3; simp [h1, h2] at h; subst h; rfl
  by_cases h4 : fl = flagsFin
  · subst h4; simp [h1, h2, h3] at h; subst h; rfl
  by_cases h5 : fl = flagsFinack
  · subst h5; simp [h1, h2, h3, h4] at h; subst h; rfl
  by_cases h6 : fl = flagsData ∧ sq ≠ 0
  · obtain ⟨rfl, h7⟩ := h6; simp only [h1, h2, h3, h4, h5, h7, if_false, and_self, if_true, ne_eq, not_false_eq_true] at h
    cases h; rfl
  · simp only [h1, h2, h3, h4, h5, h6, if_false] at h; cases h

/-- The only datagrams that are no instruction, and what the decoder says of them. -/
theorem frameInstr_error {f : Frame} {src : Addr} {e : DecodeError} (h : frameInstr f src = .error e) :
    e = .otherKind f := by
  unfold frameInstr at h
  split at h <;> simp_all

/-! ## Whose step it is -/

/-- The state without the move that is being taken. -/
def State.afterMove (s : State) : State := { s with moves := s.moves.tail }

@[simp] theorem afterMove_lifecycle (s : State) : s.afterMove.lifecycle = s.lifecycle := rfl

@[simp] theorem afterMove_phase (s : State) : s.afterMove.phase = s.phase := rfl

@[simp] theorem afterMove_role (s : State) : s.afterMove.role = s.role := rfl

@[simp] theorem afterMove_err (s : State) : s.afterMove.err = s.err := rfl

@[simp] theorem afterMove_rxf (s : State) : s.afterMove.rxf = s.rxf := rfl

@[simp] theorem afterMove_rxfSrc (s : State) : s.afterMove.rxfSrc = s.rxfSrc := rfl

@[simp] theorem afterMove_txf (s : State) : s.afterMove.txf = s.txf := rfl

@[simp] theorem afterMove_txfDst (s : State) : s.afterMove.txfDst = s.txfDst := rfl

@[simp] theorem afterMove_base (s : State) : s.afterMove.base = s.base := rfl

@[simp] theorem afterMove_nextSeq (s : State) : s.afterMove.nextSeq = s.nextSeq := rfl

@[simp] theorem afterMove_total (s : State) : s.afterMove.total = s.total := rfl

@[simp] theorem afterMove_rtx (s : State) : s.afterMove.rtx = s.rtx := rfl

@[simp] theorem afterMove_expected (s : State) : s.afterMove.expected = s.expected := rfl

@[simp] theorem afterMove_cfgWindow (s : State) : s.afterMove.cfgWindow = s.cfgWindow := rfl

@[simp] theorem afterMove_peerWindow (s : State) : s.afterMove.peerWindow = s.peerWindow := rfl

@[simp] theorem afterMove_negWindow (s : State) : s.afterMove.negWindow = s.negWindow := rfl

@[simp] theorem afterMove_peer (s : State) : s.afterMove.peer = s.peer := rfl

@[simp] theorem afterMove_dropSeq (s : State) : s.afterMove.dropSeq = s.dropSeq := rfl

@[simp] theorem afterMove_dropArmed (s : State) : s.afterMove.dropArmed = s.dropArmed := rfl

@[simp] theorem afterMove_timerArmed (s : State) : s.afterMove.timerArmed = s.timerArmed := rfl

@[simp] theorem afterMove_bytes (s : State) : s.afterMove.bytes = s.bytes := rfl

@[simp] theorem afterMove_t0 (s : State) : s.afterMove.t0 = s.t0 := rfl

@[simp] theorem afterMove_elapsed (s : State) : s.afterMove.elapsed = s.elapsed := rfl

@[simp] theorem afterMove_rxQueue (s : State) : s.afterMove.rxQueue = s.rxQueue := rfl

@[simp] theorem afterMove_out (s : State) : s.afterMove.out = s.out := rfl

@[simp] theorem afterMove_chunks (s : State) : s.afterMove.chunks = s.chunks := rfl

@[simp] theorem afterMove_now (s : State) : s.afterMove.now = s.now := rfl

@[simp] theorem afterMove_params (s : State) : s.afterMove.params = s.params := rfl

@[simp] theorem afterMove_moves (s : State) : s.afterMove.moves = s.moves.tail := rfl

/-- What is found is run: an instruction by exec, an event as it was carried out. -/
def Fetched.run : Fetched → Host.Outcome State Fault Refusal
  | .instr i s => exec i s
  | .done o => o

theorem step_eq (s : State) : step s = (fetch s).run := by
  unfold step; cases fetch s <;> rfl

theorem afterMove_of_nil {s : State} (h : s.moves = []) : s.afterMove = s := by
  cases s; cases h; rfl

theorem step_cons {s : State} {m : Move} {ms : List Move} (h : s.moves = m :: ms) :
    step s = (moveFetch m s.afterMove).run := by
  rw [step_eq, fetch, h]; simp only [State.afterMove, h, List.tail_cons]

/-- On the engine's turn a step is the engine's own, in the state without the move. -/
theorem step_engine {s : State} (h : enginesTurn s) : step s = (engineFetch s.afterMove).run := by
  rcases h with h | ⟨ms, h⟩
  · rw [step_eq, fetch, h, afterMove_of_nil h]
  · rw [step_cons h]; rfl

/-- The engine's own step, by what the datagram at the head of the queue decodes to. -/
theorem engineFetch_run (s : State) : (engineFetch s).run =
    match waitOf s.lifecycle s.phase, s.rxQueue with
    | none, _ => .next (internalStep s)
    | some _, [] => .next s
    | some _, d :: _ =>
      match codecDecode d.bytes with
      | none => .next (raiseFatal .shortHeader s.rxPop)
      | some f => .next (receive f d.src s) := by
  unfold engineFetch
  cases waitOf s.lifecycle s.phase with
  | none => rfl
  | some w =>
    cases s.rxQueue with
    | nil => rfl
    | cons d q =>
      cases hd : codecDecode d.bytes with
      | none => simp [decode, hd, Fetched.run]
      | some f =>
        cases hi : frameInstr f d.src with
        | ok i => simp only [decode, hd, hi, Fetched.run]; exact exec_frameInstr hi s
        | error e => simp only [decode, hd, hi, frameInstr_error hi, Fetched.run]

/-- A waiting engine takes the frame at the head of the RX queue, whatever its kind. -/
theorem step_takes_frame {s : State} {d : Datagram} {q : List Datagram} {f : Frame} (ht : enginesTurn s)
    (hw : waitOf s.lifecycle s.phase ≠ none) (hq : s.rxQueue = d :: q) (hd : codecDecode d.bytes = some f) :
    step s = .next (receive f d.src s.afterMove) := by
  rw [step_engine ht]
  obtain ⟨w, hw⟩ := Option.ne_none_iff_exists'.1 hw
  have hdec : decode (.datagram d.src d.bytes) = frameInstr f d.src := by simp [decode, hd]
  simp only [engineFetch, afterMove_lifecycle, afterMove_phase, afterMove_rxQueue, hw, hq, hdec]
  cases hi : frameInstr f d.src with
  | ok i => exact exec_frameInstr hi _
  | error e => rw [frameInstr_error hi]; rfl

/-- A waiting engine raises ShortHeader on a datagram that does not decode. -/
theorem step_takes_short {s : State} {d : Datagram} {q : List Datagram} (ht : enginesTurn s)
    (hw : waitOf s.lifecycle s.phase ≠ none) (hq : s.rxQueue = d :: q) (hd : codecDecode d.bytes = none) :
    step s = .next (raiseFatal .shortHeader s.afterMove.rxPop) := by
  rw [step_engine ht]
  obtain ⟨w, hw⟩ := Option.ne_none_iff_exists'.1 hw
  simp only [engineFetch, afterMove_lifecycle, afterMove_phase, afterMove_rxQueue, hw, hq, decode, hd]; rfl

/-- An engine in no waiting phase takes its internal step. -/
theorem step_internal {s : State} (ht : enginesTurn s) (hw : waitOf s.lifecycle s.phase = none) :
    step s = .next (internalStep s.afterMove) := by
  rw [step_engine ht]; simp only [engineFetch, afterMove_lifecycle, afterMove_phase, hw]; rfl

/-- A waiting engine with an empty RX queue stays as it is. -/
theorem step_blocked {s : State} (ht : enginesTurn s) (hw : waitOf s.lifecycle s.phase ≠ none) (hq : s.rxQueue = []) :
    step s = .next s.afterMove := by
  rw [step_engine ht]
  obtain ⟨w, hw⟩ := Option.ne_none_iff_exists'.1 hw
  simp only [engineFetch, afterMove_lifecycle, afterMove_phase, afterMove_rxQueue, hw, hq]; rfl

/-- No phase of FILL or RETX waits for a frame. -/
@[simp] theorem waitOf_fill (l : Lifecycle) : waitOf l .fill = none := by cases l <;> rfl

@[simp] theorem waitOf_retx (l : Lifecycle) : waitOf l .retx = none := by cases l <;> rfl

@[simp] theorem waitOf_none (l : Lifecycle) : waitOf l .none = none := by cases l <;> rfl

theorem internalStep_fill {s : State} (h : s.phase = .fill) : internalStep s = fillStep s := by
  unfold internalStep; cases s.lifecycle <;> simp [h]

theorem internalStep_retx {s : State} (h : s.phase = .retx) : internalStep s = retxStep s := by
  unfold internalStep; cases s.lifecycle <;> simp [h]

/-! ## All that a step can do -/

/-- The states `t` that a step from `s` can end in; `s1` is `s` without the move that was taken. -/
inductive StepCase (s s1 t : State) : Prop where
  /-- The host's command was run. -/
  | command (code : BitVec 3) (args : CmdArgs) (hm : s.moves = .command code args :: s1.moves)
      (ht : exec (decodeCommand code args) s1 = .next t)
  /-- A waiting engine took a frame. -/
  | frame (w : Wait) (d : Datagram) (q : List Datagram) (f : Frame) (hw : waitOf s.lifecycle s.phase = some w)
      (hq : s.rxQueue = d :: q) (hd : codecDecode d.bytes = some f) (ht : t = onFrame w (s1.takeFrame f d.src))
  /-- A waiting engine took a datagram shorter than a header. -/
  | short (w : Wait) (d : Datagram) (q : List Datagram) (hw : waitOf s.lifecycle s.phase = some w)
      (hq : s.rxQueue = d :: q) (hd : codecDecode d.bytes = none) (ht : t = raiseFatal .shortHeader s1.rxPop)
  /-- A waiting engine found the RX queue empty. -/
  | blocked (hq : s.rxQueue = []) (ht : t = s1)
  /-- The engine took an internal step. -/
  | internal (hw : waitOf s.lifecycle s.phase = none) (ht : t = internalStep s1)
  | deliver (src : Addr) (b : Bytes) (hm : s.moves = .deliver src b :: s1.moves) (ht : t = s1.deliver src b)
  | expire (hm : s.moves = .expire :: s1.moves) (ht : t = timerExpiry s1)
  | socketFail (hm : s.moves = .socketFail :: s1.moves) (ht : t = socketFailure s1)
  | reset (hm : s.moves = .reset :: s1.moves) (ht : t = resetInput s1)
  | seam (seq : U16) (armed : Bool) (hm : s.moves = .seam seq armed :: s1.moves) (ht : t = seamWrite seq armed s1)
  | storeChunk (k : Nat) (b : Bytes) (hm : s.moves = .storeChunk k b :: s1.moves) (ht : hostStoreChunk k b s1 = .next t)
  | fillChunks (data : Bytes) (hm : s.moves = .fillChunks data :: s1.moves) (ht : hostFillChunks data s1 = .next t)
  | clock (time : Time) (hm : s.moves = .clock time :: s1.moves) (ht : t = { s1 with now := time })

theorem step_cases_engine {s t : State} (ht : enginesTurn s) (h : step s = .next t) : StepCase s s.afterMove t := by
  rcases hw : waitOf s.lifecycle s.phase with _ | w
  · rw [step_internal ht hw] at h
    exact .internal hw (by cases h; rfl)
  · rcases hq : s.rxQueue with _ | ⟨d, q⟩
    · rw [step_blocked ht (by simp [hw]) hq] at h
      exact .blocked hq (by cases h; rfl)
    · rcases hd : codecDecode d.bytes with _ | f
      · rw [step_takes_short ht (by simp [hw]) hq hd] at h
        exact .short w d q hw hq hd (by cases h; rfl)
      · rw [step_takes_frame ht (by simp [hw]) hq hd, receive_waiting (w := w) (by simpa using hw)] at h
        exact .frame w d q f hw hq hd (by cases h; rfl)

/-- A step that answers a next state is one of the cases of `StepCase`. -/
theorem step_cases {s t : State} (h : step s = .next t) : StepCase s s.afterMove t := by
  rcases hm : s.moves with _ | ⟨m, ms⟩
  · exact step_cases_engine (.inl hm) h
  cases m with
  | engine => exact step_cases_engine (.inr ⟨ms, hm⟩) h
  | command code args => rw [step_cons hm] at h; exact .command code args (by simp [hm]) h
  | deliver src b => rw [step_cons hm] at h; exact .deliver src b (by simp [hm]) (by cases h; rfl)
  | expire => rw [step_cons hm] at h; exact .expire (by simp [hm]) (by cases h; rfl)
  | socketFail => rw [step_cons hm] at h; exact .socketFail (by simp [hm]) (by cases h; rfl)
  | reset => rw [step_cons hm] at h; exact .reset (by simp [hm]) (by cases h; rfl)
  | seam seq armed => rw [step_cons hm] at h; exact .seam seq armed (by simp [hm]) (by cases h; rfl)
  | storeChunk k b => rw [step_cons hm] at h; exact .storeChunk k b (by simp [hm]) h
  | fillChunks data => rw [step_cons hm] at h; exact .fillChunks data (by simp [hm]) h
  | clock time => rw [step_cons hm] at h; exact .clock time (by simp [hm]) (by cases h; rfl)

end Sys2Proof.Machine
end

