-- ==== Sys2Proof/Laws/StepCases.lean ====
section
/-! SUPPORT. All that a step can do, rule by rule, guards included: a proof about every step takes these cases and
unfolds neither the step nor a rule's tests. -/

namespace Sys2Proof.Machine

/-- What a step from `s` that answers `t` did, with the conditions it did it under; `s1` is `s` without the move that was
taken. -/
inductive StepOutcome (s s1 t : State) : Prop where
  /-- Nothing but the move is taken: a blocked engine, or an event that is not enabled. -/
  | stays (ht : t = s1)
  /-- A command is refused. -/
  | refused (hm : ∃ c a, s.moves.head? = some (.command c a)) (ht : t = refuse s1)
  /-- ENCODE or DECODE posts its result. -/
  | codec (hm : ∃ c a, s.moves.head? = some (.command c a)) (hp : s.phase = .none) (r : CmdResult)
     (hr : (∃ b, r = .okBytes b) ∨ (∃ f, r = .okFrame f) ∨ ∃ e, r = .err e) (ht : t = s1.post r)
  /-- OPEN (R141). -/
  | openConn (a) (hm : s.moves.head? = some (.command 3 a)) (hp : s.phase = .none) (hl : s.lifecycle = .idle)
     (hr : s.role = .none)
     (ht : t = ((({ s1 with role := .client, peer := a.peer, cfgWindow := a.cfgWindow }).tx a.peer synFrame).goto
       .synSent .hsWait).timerArm)
  /-- ACCEPT (R146). -/
  | accept (a) (hm : s.moves.head? = some (.command 4 a)) (hp : s.phase = .none) (hl : s.lifecycle = .idle)
     (hr : s.role = .none)
     (ht : t = { s1 with role := .server, phase := .listen })
  /-- SEND_ALL (R170). -/
  | sendAll (a) (hm : s.moves.head? = some (.command 5 a)) (hp : s.phase = .none) (hl : s.lifecycle = .established)
     (hr : s.role = .client)
     (htot : a.total ≤ 65535) (hw : 1 ≤ s.negWindow.toNat ∨ a.total = 0)
     (ht : t = { s1.startClock with total := BitVec.ofNat 17 a.total, base := 1, nextSeq := 1, bytes := 0, phase := .fill })
  /-- RECV_ALL (R190). -/
  | recvAll (a) (hm : s.moves.head? = some (.command 6 a)) (hp : s.phase = .none) (hl : s.lifecycle = .established)
     (hr : s.role = .server)
     (ht : t = { s1.startClock with expected := 1, bytes := 0, phase := .recv })
  /-- CLOSE (R151). -/
  | close (a) (hm : s.moves.head? = some (.command 7 a)) (hp : s.phase = .none) (hl : s.lifecycle = .established)
     (hr : s.role = .client)
     (ht : t = ((s1.tx s1.peer finFrame).goto .finSent .finWait).timerArm)
  /-- The client takes a SYN-ACK (R142). -/
  | clientEstablished (d q f) (hq : s.rxQueue = d :: q) (hd : codecDecode d.bytes = some f)
     (hf : synBit f = true ∧ ackBit f = true) (hl : s.lifecycle = .synSent) (hp : s.phase = .hsWait)
     (ht : t = ((({ (s1.takeFrame f d.src).timerDisarm with
         peerWindow := f.window, negWindow := min16 s1.cfgWindow f.window }).tx s1.peer
        (ackControlFrame f.seq)).goto .established .none).post (.okWindow (min16 s1.cfgWindow f.window)))
  /-- A handshake frame lacks a required bit (R144, R148, R150). -/
  | handshakeError (d q f) (hq : s.rxQueue = d :: q) (hd : codecDecode d.bytes = some f) 
     (hw : (s.lifecycle = .synSent ∧ s.phase = .hsWait ∧ ¬ (synBit f = true ∧ ackBit f = true)) ∨
       (s.lifecycle = .idle ∧ s.phase = .listen ∧ synBit f = false) ∨
       (s.lifecycle = .synRcvd ∧ s.phase = .hsWait ∧ ackBit f = false))
     (ht : t = raiseFatal .handshakeProtocolError (s1.takeFrame f d.src))
  /-- The server answers a SYN (R147). -/
  | synAnswered (d q f) (hq : s.rxQueue = d :: q) (hd : codecDecode d.bytes = some f) (hf : synBit f = true)
     (hl : s.lifecycle = .idle) (hp : s.phase = .listen)
     (ht : t = (({ (s1.takeFrame f d.src) with peer := d.src }).tx d.src
       (synackFrame f.seq s1.params.advWindow)).goto .synRcvd .hsWait)
  /-- The third handshake frame (R149). -/
  | serverEstablished (d q f) (hq : s.rxQueue = d :: q) (hd : codecDecode d.bytes = some f) (hf : ackBit f = true)
     (hl : s.lifecycle = .synRcvd) (hp : s.phase = .hsWait)
     (ht : t = (({ (s1.takeFrame f d.src) with peer := d.src }).goto .established .none).post (.okPeer d.src))
  /-- An ACK that moves BASE (R174, R175). -/
  | ackMoves (d q f) (hq : s.rxQueue = d :: q) (hd : codecDecode d.bytes = some f) (hf : ackBit f = true)
     (hl : s.lifecycle = .established) (hp : s.phase = .wait)
     (h1 : s.base.toNat ≤ f.ack.toNat) (h2 : f.ack.toNat < s.nextSeq.toNat)
     (ht : t = { ({ (s1.takeFrame f d.src).timerDisarm with
         bytes := addBytes s1.bytes (chunkBytes s1.chunks s1.base.toNat f.ack.toNat)
         base := zext17 f.ack + 1 }).emit (.ackReceived f.ack) with phase := .fill })
  /-- A stale or premature ACK (R174, R175). -/
  | ackStale (d q f) (hq : s.rxQueue = d :: q) (hd : codecDecode d.bytes = some f) (hf : ackBit f = true)
     (hl : s.lifecycle = .established) (hp : s.phase = .wait)
     (h1 : f.ack.toNat < s.base.toNat ∨ s.nextSeq.toNat ≤ f.ack.toNat)
     (ht : t = { (s1.takeFrame f d.src).timerDisarm.emit (.ackReceived f.ack) with phase := .fill })
  /-- A frame without ACK in a wait for one (R153, R176). -/
  | ignored (d q f) (hq : s.rxQueue = d :: q) (hd : codecDecode d.bytes = some f) (hf : ackBit f = false)
     (hw : (s.lifecycle = .established ∧ s.phase = .wait) ∨ (s.lifecycle = .finSent ∧ s.phase = .finWait))
     (ht : t = s1.takeFrame f d.src)
  /-- The client is closed by an ACK (R152). -/
  | clientClosed (d q f) (hq : s.rxQueue = d :: q) (hd : codecDecode d.bytes = some f) (hf : ackBit f = true)
     (hl : s.lifecycle = .finSent) (hp : s.phase = .finWait)
     (ht : t = ((s1.takeFrame f d.src).timerDisarm.goto .closed .none).post .okClosed)
  /-- A FIN at the receiver (R193). -/
  | finReceived (d q f) (hq : s.rxQueue = d :: q) (hd : codecDecode d.bytes = some f) (hf : finBit f = true)
     (hl : s.lifecycle = .established) (hp : s.phase = .recv)
     (ht : t = recvFin (s1.takeFrame f d.src))
  /-- The drop rule (R194). -/
  | dropped (d q f) (hq : s.rxQueue = d :: q) (hd : codecDecode d.bytes = some f) (hf : finBit f = false)
     (hr : s.dropArmed = true ∧ f.seq = s.dropSeq) (hl : s.lifecycle = .established) (hp : s.phase = .recv)
     (ht : t = recvDrop (s1.takeFrame f d.src))
  /-- The in-order frame (R195). -/
  | delivered (d q f) (hq : s.rxQueue = d :: q) (hd : codecDecode d.bytes = some f) (hf : finBit f = false)
     (hr : ¬ (s.dropArmed = true ∧ f.seq = s.dropSeq)) (hl : s.lifecycle = .established) (hp : s.phase = .recv)
     (he : f.seq.toNat = s.expected.toNat) (ht : t = recvAccept (s1.takeFrame f d.src))
  /-- The out-of-order frame (R196). -/
  | outOfOrder (d q f) (hq : s.rxQueue = d :: q) (hd : codecDecode d.bytes = some f) (hf : finBit f = false)
     (hr : ¬ (s.dropArmed = true ∧ f.seq = s.dropSeq)) (hl : s.lifecycle = .established) (hp : s.phase = .recv)
     (he : f.seq.toNat ≠ s.expected.toNat) (ht : t = recvDiscard (s1.takeFrame f d.src))
  /-- A datagram shorter than a header (R213). -/
  | shortHeader (d q) (hq : s.rxQueue = d :: q) (hd : codecDecode d.bytes = none) (w)
     (hw : waitOf s.lifecycle s.phase = some w) (ht : t = raiseFatal .shortHeader s1.rxPop)
  /-- The end of SEND_ALL (R180). -/
  | sendDone (hp : s.phase = .fill) (h1 : s.total.toNat < s.base.toNat) (ht : t = sendDone s1)
  /-- A first transmission (R172). -/
  | sentNew (hp : s.phase = .fill) (h1 : s.base.toNat ≤ s.total.toNat)
     (h2 : s.nextSeq.toNat < s.base.toNat + s.negWindow.toNat) (h3 : s.nextSeq.toNat ≤ s.total.toNat)
     (h4 : (chunkRead s.chunks s.nextSeq.toNat).length ≤ 992)
     (ht : t = { (s1.tx s1.peer (dataFrame s1.nextSeq s1.negWindow (chunkRead s1.chunks s1.nextSeq.toNat))).emit
          (.sent (low16 s1.nextSeq) s1.base (s1.nextSeq + 1)) with nextSeq := s1.nextSeq + 1 })
  /-- The wait begins (R173). -/
  | windowFull (hp : s.phase = .fill) (h1 : s.base.toNat ≤ s.total.toNat)
     (h2 : s.base.toNat + s.negWindow.toNat ≤ s.nextSeq.toNat ∨ s.total.toNat < s.nextSeq.toNat)
     (ht : t = enterWait s1)
  /-- A chunk over 992 bytes (R214). -/
  | overlong (k) (hp : (s.phase = .fill ∧ k = s.nextSeq ∧ s.base.toNat ≤ s.total.toNat ∧
         s.nextSeq.toNat < s.base.toNat + s.negWindow.toNat ∧ s.nextSeq.toNat ≤ s.total.toNat) ∨
       (s.phase = .retx ∧ k = s.rtx ∧ s.rtx.toNat < s.nextSeq.toNat))
     (h4 : 992 < (chunkRead s.chunks k.toNat).length) (ht : t = raiseFatal .invalidPayload s1)
  /-- A retransmission (R178). -/
  | resent (hp : s.phase = .retx) (h1 : s.rtx.toNat < s.nextSeq.toNat)
     (h4 : (chunkRead s.chunks s.rtx.toNat).length ≤ 992)
     (ht : t = { (s1.tx s1.peer (dataFrame s1.rtx s1.negWindow (chunkRead s1.chunks s1.rtx.toNat))).emit
          (.retransmitted (low16 s1.rtx) s1.base s1.nextSeq) with rtx := s1.rtx + 1 })
  /-- Back to the wait (R179). -/
  | resendDone (hp : s.phase = .retx) (h1 : s.nextSeq.toNat ≤ s.rtx.toNat) (ht : t = enterWait s1)
  /-- The FIN-ACK (R156). -/
  | finackSent (hl : s.lifecycle = .finRcvd) (hp : s.phase = .recv) (ht : t = sendFinack s1)
  /-- A datagram arrives (R70). -/
  | arrival (src b) (hm : s.moves.head? = some (.deliver src b)) (ht : t = s1.deliver src b)
  /-- The handshake timeout (R143). -/
  | handshakeTimeout (hm : s.moves.head? = some .expire) (ha : s.timerArmed = true) (hl : s.lifecycle = .synSent)
     (hp : s.phase = .hsWait) (ht : t = raiseFatal .handshakeTimeout s1)
  /-- The data timeout (R177). -/
  | goBackN (hm : s.moves.head? = some .expire) (ha : s.timerArmed = true) (hp : s.phase = .wait)
     (ht : t = goBackN s1)
  /-- The teardown timeout (R154). -/
  | teardownTimeout (hm : s.moves.head? = some .expire) (ha : s.timerArmed = true) (hl : s.lifecycle = .finSent)
     (hp : s.phase = .finWait) (ht : t = teardownExpiry s1)
  /-- An expiry in a phase without a timer, which no reachable state has (notes/assumptions/14.md). -/
  | strayExpiry (hm : s.moves.head? = some .expire) (ha : s.timerArmed = true)
     (h1 : ¬ (s.lifecycle = .synSent ∧ s.phase = .hsWait)) (h2 : s.phase ≠ .wait)
     (h3 : ¬ (s.lifecycle = .finSent ∧ s.phase = .finWait)) (ht : t = s1.timerDisarm)
  /-- The socket fails while a command is in progress (R220). -/
  | socketError (hm : s.moves.head? = some (.socketFail)) (hp : s.phase ≠ .none) (ht : t = raiseFatal .socketError s1)
  /-- The reset input (R250). -/
  | reset (hm : s.moves.head? = some (.reset)) (ht : t = resetInput s1)
  /-- The test seam writes (R39). -/
  | seamWritten (a b) (hm : s.moves.head? = some (.seam a b)) (hl : s.lifecycle = .idle) (hp : s.phase = .none)
     (ht : t = {s1 with dropSeq := a, dropArmed := b})
  /-- The host stores a chunk. -/
  | chunkStored (k b) (hm : s.moves.head? = some (.storeChunk k b)) (hs : sending s.phase = false) (h1 : 1 ≤ k)
     (h2 : k ≤ 65535) (ht : t = { s1 with chunks := chunkWrite s1.chunks k b })
  /-- The host fills chunk memory. -/
  | chunksFilled (b) (hm : s.moves.head? = some (.fillChunks b)) (hs : sending s.phase = false)
     (h2 : (cutData b).length ≤ 65535) (ht : t = { s1 with chunks := numberFrom 1 (cutData b) })
  /-- The time source moves. -/
  | clockMoved (c) (hm : s.moves.head? = some (.clock c)) (ht : t = {s1 with now := c})

/-- Each case of `StepCase`, followed through the rule it runs. -/
theorem StepCase.outcome {s s1 t : State} (hs1 : s1 = s.afterMove) (hc : StepCase s s1 t) : StepOutcome s s1 t := by
  have e1 : s1.lifecycle = s.lifecycle := by subst hs1; rfl
  have e2 : s1.phase = s.phase := by subst hs1; rfl
  have e3 : s1.role = s.role := by subst hs1; rfl
  have e4 : s1.negWindow = s.negWindow := by subst hs1; rfl
  have e5 : s1.base = s.base := by subst hs1; rfl
  have e6 : s1.nextSeq = s.nextSeq := by subst hs1; rfl
  have e7 : s1.total = s.total := by subst hs1; rfl
  have e8 : s1.rtx = s.rtx := by subst hs1; rfl
  have e9 : s1.expected = s.expected := by subst hs1; rfl
  have e10 : s1.chunks = s.chunks := by subst hs1; rfl
  have e11 : s1.timerArmed = s.timerArmed := by subst hs1; rfl
  have e12 : s1.dropArmed = s.dropArmed := by subst hs1; rfl
  have e13 : s1.dropSeq = s.dropSeq := by subst hs1; rfl
  cases hc with
  | command code args hm ht =>
      have hcode : code = 0 ∨ code = 1 ∨ code = 2 ∨ code = 3 ∨ code = 4 ∨ code = 5 ∨ code = 6 ∨ code = 7 := by
        clear hm ht; revert code; decide
      rcases hcode with rfl|rfl|rfl|rfl|rfl|rfl|rfl|rfl <;> simp only [decodeCommand] at ht
      · injection ht with ht; exact .refused ⟨_,_,(by rw [hm]; rfl)⟩ ht.symm
      · simp at ht; simp only [exec, execEncode] at ht; injection ht with ht
        by_cases h : s1.phase = .none
        · rw [if_pos h] at ht
          cases hh : codecEncode args.frame <;> simp only [hh] at ht <;>
            exact .codec ⟨_,_,(by rw [hm]; rfl)⟩ (e2 ▸ h) _ (by simp) ht.symm
        · rw [if_neg h] at ht; exact .refused ⟨_,_,(by rw [hm]; rfl)⟩ ht.symm
      · simp at ht; simp only [exec, execDecode] at ht; injection ht with ht
        by_cases h : s1.phase = .none
        · rw [if_pos h] at ht
          cases hh : codecDecode args.bytes <;> simp only [hh] at ht <;>
            exact .codec ⟨_,_,(by rw [hm]; rfl)⟩ (e2 ▸ h) _ (by simp) ht.symm
        · rw [if_neg h] at ht; exact .refused ⟨_,_,(by rw [hm]; rfl)⟩ ht.symm
      · simp at ht; simp only [exec, execOpenConn] at ht; injection ht with ht; split at ht
        · rename_i h; exact .openConn args (by rw [hm]; rfl) (e2 ▸ h.1) (e1 ▸ h.2.1) (e3 ▸ h.2.2) ht.symm
        · exact .refused ⟨_,_,(by rw [hm]; rfl)⟩ ht.symm
      · simp at ht; simp only [exec, execAccept] at ht; injection ht with ht; split at ht
        · rename_i h; exact .accept args (by rw [hm]; rfl) (e2 ▸ h.1) (e1 ▸ h.2.1) (e3 ▸ h.2.2) ht.symm
        · exact .refused ⟨_,_,(by rw [hm]; rfl)⟩ ht.symm
      · simp at ht; simp only [exec, execSendAll] at ht; injection ht with ht; split at ht
        · rename_i h; exact .sendAll args (by rw [hm]; rfl) (e2 ▸ h.1) (e1 ▸ h.2.1) (e3 ▸ h.2.2.1) h.2.2.2.1 (e4 ▸ h.2.2.2.2) ht.symm
        · exact .refused ⟨_,_,(by rw [hm]; rfl)⟩ ht.symm
      · simp at ht; simp only [exec, execRecvAll] at ht; injection ht with ht; split at ht
        · rename_i h; exact .recvAll args (by rw [hm]; rfl) (e2 ▸ h.1) (e1 ▸ h.2.1) (e3 ▸ h.2.2) ht.symm
        · exact .refused ⟨_,_,(by rw [hm]; rfl)⟩ ht.symm
      · simp at ht; simp only [exec, execClose] at ht; injection ht with ht; split at ht
        · rename_i h; exact .close args (by rw [hm]; rfl) (e2 ▸ h.1) (e1 ▸ h.2.1) (e3 ▸ h.2.2) ht.symm
        · exact .refused ⟨_,_,(by rw [hm]; rfl)⟩ ht.symm
  | frame w d q f hw hq hd ht =>
      rcases waitOf_eq_some hw with ⟨rfl, h1, h2⟩|⟨rfl, h1, h2⟩|⟨rfl, h1, h2⟩|⟨rfl, h1, h2⟩|⟨rfl, h1, h2⟩|⟨rfl, h1, h2⟩ <;> simp only [onFrame] at ht
      · simp only [onClientReply] at ht; split at ht
        · exact .clientEstablished d q f hq hd ‹_› h1 h2 ht
        · exact .handshakeError d q f hq hd (.inl ⟨h1, h2, ‹_›⟩) ht
      · simp only [onServerListen] at ht; split at ht
        · exact .synAnswered d q f hq hd ‹_› h1 h2 ht
        · rename_i h; exact .handshakeError d q f hq hd (.inr (.inl ⟨h1, h2, by simpa using h⟩)) ht
      · simp only [onServerThird] at ht; split at ht
        · exact .serverEstablished d q f hq hd ‹_› h1 h2 ht
        · rename_i h; exact .handshakeError d q f hq hd (.inr (.inr ⟨h1, h2, by simpa using h⟩)) ht
      · simp only [onSenderAck, applyAck] at ht; split at ht
        · rename_i hf
          split at ht
          · rename_i h
            simp only [timerDisarm_base, takeFrame_base, timerDisarm_nextSeq, takeFrame_nextSeq, takeFrame_rxf, e5, e6] at h
            exact .ackMoves d q f hq hd hf h1 h2 h.1 h.2 ht
          · rename_i h
            simp only [timerDisarm_base, takeFrame_base, timerDisarm_nextSeq, takeFrame_nextSeq, takeFrame_rxf, e5, e6] at h
            exact .ackStale d q f hq hd hf h1 h2 (by omega) ht
        · rename_i hf; exact .ignored d q f hq hd (by simpa using hf) (by tauto) ht
      · simp only [onClientClose] at ht; split at ht
        · exact .clientClosed d q f hq hd ‹_› h1 h2 ht
        · rename_i hf; exact .ignored d q f hq hd (by simpa using hf) (by tauto) ht
      · simp only [onReceiver] at ht; split at ht
        · exact .finReceived d q f hq hd ‹_› h1 h2 ht
        · rename_i hf
          have hf : finBit f = false := by simpa using hf
          split at ht
          · rename_i hr
            exact .dropped d q f hq hd hf (by simpa [e12, e13] using hr) h1 h2 ht
          · rename_i hr
            have hr : ¬ (s.dropArmed = true ∧ f.seq = s.dropSeq) := by simpa [e12, e13] using hr
            split at ht
            · rename_i h
              exact .delivered d q f hq hd hf hr h1 h2 (by simpa [e9] using congrArg BitVec.toNat h) ht
            · rename_i h
              exact .outOfOrder d q f hq hd hf hr h1 h2 (fun h' => h (BitVec.eq_of_toNat_eq (by simpa [e9] using h'))) ht
  | short w d q hw hq hd ht => exact .shortHeader d q hq hd w hw ht
  | blocked hq ht => exact .stays ht
  | internal hw ht =>
      rw [internalStep] at ht
      split at ht
      · rename_i hp; have hp' := e2.symm.trans hp
        simp only [fillStep] at ht
        split at ht
        · rename_i h; rw [e5,e7] at h; exact .sendDone hp' h ht
        · rename_i h; rw [e5,e7] at h
          split at ht
          · rename_i h'; rw [e5,e6,e4,e7] at h'
            simp only [sendNew] at ht
            split at ht
            · rename_i h4; rw [e10, e6] at h4
              exact .overlong s.nextSeq (.inl ⟨hp', rfl, by omega, h'.1, h'.2⟩) h4 ht
            · rename_i h4; rw [e10, e6] at h4; exact .sentNew hp' (by omega) h'.1 h'.2 (by simpa using h4) ht
          · rename_i h'; rw [e5,e6,e4,e7] at h'
            exact .windowFull hp' (by omega) (by omega) ht
      · rename_i hp; have hp' := e2.symm.trans hp
        simp only [retxStep] at ht
        split at ht
        · rename_i h; rw [e8,e6] at h
          simp only [resend] at ht
          split at ht
          · rename_i h4; rw [e10, e8] at h4; exact .overlong s.rtx (.inr ⟨hp', rfl, h⟩) h4 ht
          · rename_i h4; rw [e10, e8] at h4; exact .resent hp' h (by simpa using h4) ht
        · rename_i h; rw [e8,e6] at h; exact .resendDone hp' (by omega) ht
      · rename_i hl hp; exact .finackSent (e1.symm.trans hl) (e2.symm.trans hp) ht
      · exact .stays ht
  | deliver src b hm ht => exact .arrival src b (by rw [hm]; rfl) ht
  | expire hm ht =>
      simp only [timerExpiry] at ht
      split at ht
      · rename_i ha; rw [e11] at ha
        split at ht
        · rename_i hl hp; exact .handshakeTimeout (by rw [hm]; rfl) ha (e1.symm.trans hl) (e2.symm.trans hp) ht
        · rename_i hp; exact .goBackN (by rw [hm]; rfl) ha (e2.symm.trans hp) ht
        · rename_i hl hp; exact .teardownTimeout (by rw [hm]; rfl) ha (e1.symm.trans hl) (e2.symm.trans hp) ht
        · rename_i a b c; rw [e1,e2] at *; exact .strayExpiry (by rw [hm]; rfl) ha (by tauto) (by tauto) (by tauto) ht
      · exact .stays ht
  | socketFail hm ht =>
      rw [socketFailure, e2] at ht; split at ht
      · exact .stays ht
      · exact .socketError (by rw [hm]; rfl) ‹_› ht
  | reset hm ht => exact .reset (by rw [hm]; rfl) ht
  | seam a b hm ht =>
      rw [seamWrite] at ht; split at ht
      · rename_i h; exact .seamWritten a b (by rw [hm]; rfl) (e1 ▸ h.1) (e2 ▸ h.2) ht
      · exact .stays ht
  | storeChunk k b hm ht =>
      rw [hostStoreChunk] at ht; split at ht
      · cases ht
      · split at ht
        · rename_i h0 h; exact .chunkStored k b (by rw [hm]; rfl) (by rw [← e2]; simpa using h0) h.1 h.2 (by cases ht; rfl)
        · cases ht
  | fillChunks b hm ht =>
      rw [hostFillChunks] at ht; split at ht
      · cases ht
      · split at ht
        · rename_i h0 h; exact .chunksFilled b (by rw [hm]; rfl) (by rw [← e2]; simpa using h0) h (by cases ht; rfl)
        · cases ht
  | clock c hm ht => exact .clockMoved c (by rw [hm]; rfl) ht
/-- A step that answers a next state is one of the cases of `StepOutcome`. -/
theorem step_outcome {s t : State} (h : step s = .next t) : StepOutcome s s.afterMove t := (step_cases h).outcome rfl

end Sys2Proof.Machine
end

