-- ==== Sys2Proof/Laws/Addresses.lean ====
section
/-! SUPPORT. The engine makes no address of its own: whatever address stands in a state after a step stood in the state
before it, or is the address 0 that reset leaves. -/

namespace Sys2Proof.Machine

/-- Where an address stands in a state. -/
theorem mem_addresses {a : Addr} {s : State} :
    a ∈ s.addresses ↔ a = s.peer ∨ a = s.rxfSrc ∨ a = s.txfDst ∨ (∃ d ∈ s.rxQueue, d.src = a) ∨
      (∃ o ∈ s.out, a ∈ o.addresses) ∨ ∃ m ∈ s.moves, a ∈ m.addresses := by
  simp [State.addresses, List.mem_flatMap]

/-- No address is new in `t`, but for 0. -/
def NoNewAddress (s t : State) : Prop := ∀ a ∈ t.addresses, a = 0 ∨ a ∈ s.addresses

@[simp] theorem failResult_addresses (e : ErrCode) (p : Phase) (s : State) :
    Output.addresses (.result (failResult e p s)) = [] := by
  cases p <;> rfl

@[simp] theorem tx_addresses (dst : Addr) (b : Bytes) : Output.addresses (.tx dst b) = [dst] := rfl
@[simp] theorem sink_addresses (b : Bytes) : Output.addresses (.sink b) = [] := rfl
@[simp] theorem trace_addresses (e : TraceEvent) : Output.addresses (.trace e) = [] := rfl
@[simp] theorem okPeer_addresses (a : Addr) : Output.addresses (.result (.okPeer a)) = [a] := rfl
@[simp] theorem okBytes_addresses (b : Bytes) : Output.addresses (.result (.okBytes b)) = [] := rfl
@[simp] theorem okFrame_addresses (f : Frame) : Output.addresses (.result (.okFrame f)) = [] := rfl
@[simp] theorem okWindow_addresses (w : U16) : Output.addresses (.result (.okWindow w)) = [] := rfl
@[simp] theorem okStats_addresses (s : Stats) : Output.addresses (.result (.okStats s)) = [] := rfl
@[simp] theorem okClosed_addresses : Output.addresses (.result .okClosed) = [] := rfl
@[simp] theorem okTeardownTimeout_addresses : Output.addresses (.result .okTeardownTimeout) = [] := rfl
@[simp] theorem err_addresses (e : ErrCode) : Output.addresses (.result (.err e)) = [] := rfl
@[simp] theorem deliver_addresses (src : Addr) (b : Bytes) : Move.addresses (.deliver src b) = [src] := rfl
@[simp] theorem command_addresses (code : BitVec 3) (args : CmdArgs) :
    Move.addresses (.command code args) = [args.peer] := rfl

/-- A step makes no address. -/
theorem step_addresses {s t : State} (h : step s = .next t) : NoNewAddress s t := by
  have hmoves : ∀ m ∈ s.moves.tail, m ∈ s.moves := fun m hm => List.mem_of_mem_tail hm
  have hhead : ∀ m, s.moves.head? = some m → m ∈ s.moves := fun m hm => List.mem_of_mem_head? hm
  intro a ha
  rw [mem_addresses] at ha ⊢
  cases step_outcome h
  all_goals
    rename_i ht
    subst ht
    simp [sendDone, enterWait, sendFinack, recvFin, recvDrop, recvAccept, recvDiscard, goBackN, teardownExpiry,
      resetInput, State.resetWith, or_and_right, exists_or] at ha
    grind [command_addresses, deliver_addresses, okBytes_addresses, okFrame_addresses, err_addresses]

/-- No step writes the parameters. -/
theorem step_params {s t : State} (h : step s = .next t) : t.params = s.params := by
  cases step_outcome h
  all_goals
    rename_i ht
    subst ht
    rfl

/-- A step keeps that every address in the state is one of the type Addr. -/
theorem step_isAddr {s t : State} (h : step s = .next t) (h0 : s.params.isAddr 0 = true)
    (hs : ∀ a ∈ s.addresses, s.params.isAddr a = true) : ∀ a ∈ t.addresses, t.params.isAddr a = true := by
  intro a ha
  rw [step_params h]
  rcases step_addresses h a ha with rfl | ha
  · exact h0
  · exact hs a ha

end Sys2Proof.Machine
end

