-- ==== Sys2Proof/Laws/Memory.lean ====
section
/-! SUPPORT. Chunk memory: every operation on it keeps its canonical form. -/

namespace Sys2Proof.Machine

theorem chunkWrite_keys {m : ChunkMem} {k : Nat} {b : Bytes} {e : Nat × Bytes} (h : e ∈ chunkWrite m k b) :
    e ∈ m ∨ (e = (k, b) ∧ b ≠ unlistedChunk) := by
  induction m with
  | nil =>
    simp only [chunkWrite] at h
    split at h <;> simp_all
  | cons c m ih =>
    obtain ⟨j, c⟩ := c
    simp only [chunkWrite] at h
    split at h
    · split at h <;> simp_all [or_comm]
    · split at h
      · split at h <;> simp_all
        rcases h with h | h <;> simp_all
      · rcases List.mem_cons.1 h with h | h
        · exact .inl (h ▸ List.mem_cons_self)
        · exact (ih h).imp (List.mem_cons_of_mem _) id

theorem chunkWrite_rising {m : ChunkMem} {k : Nat} {b : Bytes} (hm : m.Pairwise fun a b => a.1 < b.1) :
    (chunkWrite m k b).Pairwise fun a b => a.1 < b.1 := by
  induction m with
  | nil => simp only [chunkWrite]; split <;> simp
  | cons c m ih =>
    obtain ⟨j, c⟩ := c
    obtain ⟨hj, hm'⟩ := List.pairwise_cons.1 hm
    simp only [chunkWrite]
    split
    · split
      · exact hm
      · refine List.pairwise_cons.2 ⟨fun e he => ?_, hm⟩
        rcases List.mem_cons.1 he with rfl | he
        · assumption
        · exact Nat.lt_trans ‹_› (hj e he)
    · split
      · split
        · exact hm'
        · subst_vars; exact List.pairwise_cons.2 ⟨hj, hm'⟩
      · refine List.pairwise_cons.2 ⟨fun e he => ?_, ih hm'⟩
        rcases chunkWrite_keys he with he | ⟨rfl, -⟩
        · exact hj e he
        · show j < k
          omega

/-- A store keeps the canonical form. -/
theorem chunkWrite_wf {m : ChunkMem} {k : Nat} {b : Bytes} (hm : Memory.wf m) (h1 : 1 ≤ k) (h2 : k ≤ Config.maxChunks) :
    Memory.wf (chunkWrite m k b) := by
  refine ⟨chunkWrite_rising hm.1, fun e he => ?_⟩
  rcases chunkWrite_keys he with he | ⟨rfl, hb⟩
  · exact hm.2 e he
  · exact ⟨h1, h2, hb⟩

theorem cutAt992_nonempty {fuel : Nat} {data c : Bytes} (h : c ∈ cutAt992 fuel data) : c ≠ unlistedChunk := by
  induction fuel generalizing data with
  | zero => simp [cutAt992] at h
  | succ n ih =>
    cases data with
    | nil => simp [cutAt992] at h
    | cons b rest =>
      rcases List.mem_cons.1 h with rfl | h
      · simp [unlistedChunk, Config.chunkSize]
      · exact ih h

theorem numberFrom_mem {cs : List Bytes} {k : Nat} {e : Nat × Bytes} (h : e ∈ numberFrom k cs) :
    k ≤ e.1 ∧ e.1 < k + cs.length ∧ e.2 ∈ cs := by
  induction cs generalizing k with
  | nil => simp [numberFrom] at h
  | cons c cs ih =>
    rcases List.mem_cons.1 h with rfl | h
    · simp
    · obtain ⟨h1, h2, h3⟩ := ih h
      exact ⟨by omega, by simp; omega, List.mem_cons_of_mem _ h3⟩

theorem numberFrom_rising (cs : List Bytes) (k : Nat) : (numberFrom k cs).Pairwise fun a b => a.1 < b.1 := by
  induction cs generalizing k with
  | nil => simp [numberFrom]
  | cons c cs ih =>
    exact List.pairwise_cons.2 ⟨fun e he => (numberFrom_mem he).1, ih (k + 1)⟩

/-- Filling chunk memory with at most 65535 pieces gives the canonical form. -/
theorem fill_wf {data : Bytes} (h : (cutData data).length ≤ Config.maxChunks) :
    Memory.wf (numberFrom 1 (cutData data)) := by
  refine ⟨numberFrom_rising _ _, fun e he => ?_⟩
  obtain ⟨h1, h2, h3⟩ := numberFrom_mem he
  exact ⟨h1, by omega, cutAt992_nonempty h3⟩

/-- The chunk memory of State.reset is in canonical form. -/
theorem reset_chunks_wf : Memory.wf State.reset.chunks := by
  simp [Memory.wf, State.reset, State.resetWith]

/-- The host's store keeps the canonical form. -/
theorem hostStoreChunk_wf {k : Nat} {b : Bytes} {s t : State} (h : hostStoreChunk k b s = .next t)
    (hs : Memory.wf s.chunks) : Memory.wf t.chunks := by
  unfold hostStoreChunk at h
  split at h
  · cases h
  · split at h
    · cases h; exact chunkWrite_wf hs (by tauto) (by tauto)
    · cases h

/-- The host's fill keeps the canonical form. -/
theorem hostFillChunks_wf {data : Bytes} {s t : State} (h : hostFillChunks data s = .next t) : Memory.wf t.chunks := by
  unfold hostFillChunks at h
  split at h
  · cases h
  · split at h
    · cases h; exact fill_wf ‹_›
    · cases h

end Sys2Proof.Machine
end

