-- ==== Sys2Proof/Laws/PerInstr.lean ====
section
/-! SUPPORT. Facts about every instruction as syntax, one lemma per constructor. -/

namespace Sys2Proof.Laws

/-- The words of an instruction are those of its own row of spec/opcode_table.json: the bytes at offsets 4 and 5 of a
frame hold the row's flags value and the datagram is 8 bytes longer than the payload, a command's code is the row's match value
(spec/30_encoding.md R95, R103). -/
def RowOfEncoding.Statement (i : Instr) : Prop :=
  match i with
  | .syn a => ∃ b, encode i = .datagram a.src b ∧ b.length = 8 + a.payload.length ∧ (b.drop 4).take 2 = [0x00, 0x02]
  | .synack a => ∃ b, encode i = .datagram a.src b ∧ b.length = 8 + a.payload.length ∧ (b.drop 4).take 2 = [0x00, 0x0A]
  | .ack a => ∃ b, encode i = .datagram a.src b ∧ b.length = 8 + a.payload.length ∧ (b.drop 4).take 2 = [0x00, 0x08]
  | .fin a => ∃ b, encode i = .datagram a.src b ∧ b.length = 8 + a.payload.length ∧ (b.drop 4).take 2 = [0x00, 0x01]
  | .finack a => ∃ b, encode i = .datagram a.src b ∧ b.length = 8 + a.payload.length ∧ (b.drop 4).take 2 = [0x00, 0x09]
  | .data a => ∃ b, encode i = .datagram a.src b ∧ b.length = 8 + a.payload.length ∧ (b.drop 4).take 2 = [0x00, 0x00]
  | .cmdReserved => ∃ args, encode i = .command 0 args
  | .encode _ => ∃ args, encode i = .command 1 args
  | .decode _ => ∃ args, encode i = .command 2 args
  | .openConn _ _ => ∃ args, encode i = .command 3 args
  | .accept => ∃ args, encode i = .command 4 args
  | .sendAll _ => ∃ args, encode i = .command 5 args
  | .recvAll => ∃ args, encode i = .command 6 args
  | .close => ∃ args, encode i = .command 7 args

/-- Length and flags bytes of a frame's bytes. -/
theorem frame_bytes_row (f : Frame) :
    f.bytes.length = 8 + f.payload.length ∧ (f.bytes.drop 4).take 2 = be16 f.flags := by
  constructor
  · simp [Frame.bytes, be16]; omega
  · simp [Frame.bytes, be16]

theorem RowOfEncoding.syn (a : FrameArgs) : RowOfEncoding.Statement (.syn a) :=
  ⟨_, rfl, (frame_bytes_row (a.frame flagsSyn)).1, (frame_bytes_row (a.frame flagsSyn)).2.trans (by decide : be16 flagsSyn = _)⟩

theorem RowOfEncoding.synack (a : FrameArgs) : RowOfEncoding.Statement (.synack a) :=
  ⟨_, rfl, (frame_bytes_row (a.frame flagsSynack)).1, (frame_bytes_row (a.frame flagsSynack)).2.trans (by decide : be16 flagsSynack = _)⟩

theorem RowOfEncoding.ack (a : FrameArgs) : RowOfEncoding.Statement (.ack a) :=
  ⟨_, rfl, (frame_bytes_row (a.frame flagsAck)).1, (frame_bytes_row (a.frame flagsAck)).2.trans (by decide : be16 flagsAck = _)⟩

theorem RowOfEncoding.fin (a : FrameArgs) : RowOfEncoding.Statement (.fin a) :=
  ⟨_, rfl, (frame_bytes_row (a.frame flagsFin)).1, (frame_bytes_row (a.frame flagsFin)).2.trans (by decide : be16 flagsFin = _)⟩

theorem RowOfEncoding.finack (a : FrameArgs) : RowOfEncoding.Statement (.finack a) :=
  ⟨_, rfl, (frame_bytes_row (a.frame flagsFinack)).1, (frame_bytes_row (a.frame flagsFinack)).2.trans (by decide : be16 flagsFinack = _)⟩

theorem RowOfEncoding.data (a : FrameArgs) : RowOfEncoding.Statement (.data a) :=
  ⟨_, rfl, (frame_bytes_row (a.frame flagsData)).1, (frame_bytes_row (a.frame flagsData)).2.trans (by decide : be16 flagsData = _)⟩

theorem RowOfEncoding.cmdReserved : RowOfEncoding.Statement .cmdReserved := ⟨_, rfl⟩

theorem RowOfEncoding.encode (f : Frame) : RowOfEncoding.Statement (.encode f) := ⟨_, rfl⟩

theorem RowOfEncoding.decode (b : Bytes) : RowOfEncoding.Statement (.decode b) := ⟨_, rfl⟩

theorem RowOfEncoding.openConn (peer : Addr) (w : U16) : RowOfEncoding.Statement (.openConn peer w) := ⟨_, rfl⟩

theorem RowOfEncoding.accept : RowOfEncoding.Statement .accept := ⟨_, rfl⟩

theorem RowOfEncoding.sendAll (total : Nat) : RowOfEncoding.Statement (.sendAll total) := ⟨_, rfl⟩

theorem RowOfEncoding.recvAll : RowOfEncoding.Statement .recvAll := ⟨_, rfl⟩

theorem RowOfEncoding.close : RowOfEncoding.Statement .close := ⟨_, rfl⟩

end Sys2Proof.Laws
end

