-- ==== Sys2Proof/Laws/Rename.lean ====
section
/-! SUPPORT. No rule inspects an address (spec/92_eei_decisions.md D27): a step commutes with any renaming of the
addresses, even one that makes two of them equal. So a run over numbered addresses is a run over any type Addr
(notes/assumptions/1.md). -/

namespace Sys2Proof.Machine

variable (g : Addr → Addr) (s : State)

/-- A queued datagram with its source renamed. -/
def Datagram.rename (d : Datagram) : Datagram := ⟨g d.src, d.bytes⟩

/-- A result with its address renamed. -/
def CmdResult.rename : CmdResult → CmdResult
  | .okPeer a => .okPeer (g a)
  | .okBytes b => .okBytes b
  | .okFrame f => .okFrame f
  | .okWindow w => .okWindow w
  | .okStats s => .okStats s
  | .okClosed => .okClosed
  | .okTeardownTimeout => .okTeardownTimeout
  | .err e => .err e
  | .errRecv e s => .errRecv e s
  | .errSend e s n => .errSend e s n

/-- An output with its address renamed. -/
def Output.rename : Output → Output
  | .tx dst b => .tx (g dst) b
  | .result r => .result (r.rename g)
  | .sink b => .sink b
  | .trace e => .trace e

/-- The argument lines with the address line renamed. -/
def renameArgs (a : CmdArgs) : CmdArgs := { a with peer := g a.peer }

/-- A move with its address renamed. -/
def Move.rename : Move → Move
  | .deliver src b => .deliver (g src) b
  | .command code args => .command code (renameArgs g args)
  | .engine => .engine
  | .expire => .expire
  | .socketFail => .socketFail
  | .reset => .reset
  | .seam q a => .seam q a
  | .storeChunk k b => .storeChunk k b
  | .fillChunks d => .fillChunks d
  | .clock t => .clock t

/-- A state with every address in it renamed. -/
def State.rename (s : State) : State :=
  { s with
    peer := g s.peer, rxfSrc := g s.rxfSrc, txfDst := g s.txfDst, rxQueue := s.rxQueue.map (Datagram.rename g),
    out := s.out.map (Output.rename g), moves := s.moves.map (Move.rename g) }

/-- An outcome with the addresses of its state renamed. -/
def renameOutcome : Host.Outcome State Fault Refusal → Host.Outcome State Fault Refusal
  | .next s => .next (s.rename g)
  | .fault r => .fault r
  | .refused r => .refused r

@[simp] theorem rename_lifecycle : (s.rename g).lifecycle = s.lifecycle := rfl
@[simp] theorem rename_phase : (s.rename g).phase = s.phase := rfl
@[simp] theorem rename_role : (s.rename g).role = s.role := rfl
@[simp] theorem rename_err : (s.rename g).err = s.err := rfl
@[simp] theorem rename_rxf : (s.rename g).rxf = s.rxf := rfl
@[simp] theorem rename_txf : (s.rename g).txf = s.txf := rfl
@[simp] theorem rename_base : (s.rename g).base = s.base := rfl
@[simp] theorem rename_nextSeq : (s.rename g).nextSeq = s.nextSeq := rfl
@[simp] theorem rename_total : (s.rename g).total = s.total := rfl
@[simp] theorem rename_rtx : (s.rename g).rtx = s.rtx := rfl
@[simp] theorem rename_expected : (s.rename g).expected = s.expected := rfl
@[simp] theorem rename_cfgWindow : (s.rename g).cfgWindow = s.cfgWindow := rfl
@[simp] theorem rename_peerWindow : (s.rename g).peerWindow = s.peerWindow := rfl
@[simp] theorem rename_negWindow : (s.rename g).negWindow = s.negWindow := rfl
@[simp] theorem rename_dropSeq : (s.rename g).dropSeq = s.dropSeq := rfl
@[simp] theorem rename_dropArmed : (s.rename g).dropArmed = s.dropArmed := rfl
@[simp] theorem rename_timerArmed : (s.rename g).timerArmed = s.timerArmed := rfl
@[simp] theorem rename_bytes : (s.rename g).bytes = s.bytes := rfl
@[simp] theorem rename_t0 : (s.rename g).t0 = s.t0 := rfl
@[simp] theorem rename_elapsed : (s.rename g).elapsed = s.elapsed := rfl
@[simp] theorem rename_chunks : (s.rename g).chunks = s.chunks := rfl
@[simp] theorem rename_now : (s.rename g).now = s.now := rfl
@[simp] theorem rename_params : (s.rename g).params = s.params := rfl
@[simp] theorem rename_peer : (s.rename g).peer = g s.peer := rfl
@[simp] theorem rename_rxfSrc : (s.rename g).rxfSrc = g s.rxfSrc := rfl
@[simp] theorem rename_txfDst : (s.rename g).txfDst = g s.txfDst := rfl
@[simp] theorem rename_rxQueue : (s.rename g).rxQueue = s.rxQueue.map (Datagram.rename g) := rfl
@[simp] theorem rename_out : (s.rename g).out = s.out.map (Output.rename g) := rfl
@[simp] theorem rename_moves : (s.rename g).moves = s.moves.map (Move.rename g) := rfl

/-! ## The named operations -/

theorem deliver_rename (src : Addr) (b : Bytes) :
    (s.rename g).deliver (g src) b = (s.deliver src b).rename g := by
  have h : queueFull (s.rename g).params (s.rename g).rxQueue = queueFull s.params s.rxQueue := by
    simp [queueFull]
  simp only [State.deliver, h]
  cases queueFull s.params s.rxQueue <;> simp [State.rename, Datagram.rename]

theorem takeFrame_rename (f : Frame) (src : Addr) :
    (s.rename g).takeFrame f (g src) = (s.takeFrame f src).rename g := by
  simp [State.takeFrame, State.rename]

theorem rxPop_rename : (s.rename g).rxPop = s.rxPop.rename g := by
  simp [State.rxPop, State.rename]

theorem tx_rename (dst : Addr) (f : Frame) : (s.rename g).tx (g dst) f = (s.tx dst f).rename g := by
  simp [State.tx, State.rename, Output.rename]

theorem post_rename (r : CmdResult) : (s.rename g).post (r.rename g) = (s.post r).rename g := by
  simp [State.post, State.rename, Output.rename]

theorem refuse_rename : refuse (s.rename g) = (refuse s).rename g := post_rename g s (.err .cmdRefused)

theorem raiseFatal_rename (e : ErrCode) : raiseFatal e (s.rename g) = (raiseFatal e s).rename g := by
  cases h : s.phase <;>
    simp [raiseFatal, State.post, State.goto, State.rename, Output.rename, failResult, CmdResult.rename, State.stats,
      timed, h]

/-! ## The rules -/

/-- A choice that does not look at an address. -/
theorem ite_rename {c : Prop} {d1 d2 : Decidable c} {a b a' b' : State} (ha : a' = a.rename g)
    (hb : b' = b.rename g) : @ite _ c d1 a' b' = (@ite _ c d2 a b).rename g := by
  subst ha hb
  by_cases h : c
  · rw [if_pos h, if_pos h]
  · rw [if_neg h, if_neg h]

theorem onFrame_rename (w : Wait) : onFrame w (s.rename g) = (onFrame w s).rename g := by
  cases w with
  | clientReply =>
    refine ite_rename g ?_ (raiseFatal_rename g s _)
    simp [State.rename, State.timerDisarm, State.tx, State.goto, State.post, Output.rename, CmdResult.rename]
  | serverListen =>
    refine ite_rename g ?_ (raiseFatal_rename g s _)
    simp [State.rename, State.tx, State.goto, Output.rename]
  | serverThird =>
    refine ite_rename g ?_ (raiseFatal_rename g s _)
    simp [State.rename, State.goto, State.post, Output.rename, CmdResult.rename]
  | senderAck =>
    refine ite_rename g ?_ rfl
    have h : applyAck s.rxf.ack (s.timerDisarm.rename g) = (applyAck s.rxf.ack s.timerDisarm).rename g :=
      ite_rename g rfl rfl
    have h' : (applyAck (s.rename g).rxf.ack (s.rename g).timerDisarm) = (applyAck s.rxf.ack s.timerDisarm).rename g := h
    rw [h']
    simp [State.rename, State.emit, Output.rename]
  | clientClose =>
    refine ite_rename g ?_ rfl
    simp [State.rename, State.timerDisarm, State.goto, State.post, Output.rename, CmdResult.rename]
  | receiver =>
    refine ite_rename g ?_ (ite_rename g ?_ (ite_rename g ?_ ?_))
    · simp [State.rename, recvFin, State.emit, Output.rename]
    · simp [State.rename, recvDrop, State.emit, Output.rename]
    · simp [State.rename, recvAccept, State.sinkWrite, State.tx, State.emit, State.rxfPlen, Output.rename]
    · simp [State.rename, recvDiscard, State.emit, Output.rename]

/-- One frame, met by an engine with the addresses renamed. -/
theorem receive_rename (f : Frame) (src : Addr) : receive f (g src) (s.rename g) = (receive f src s).rename g := by
  unfold receive
  simp only [rename_lifecycle, rename_phase]
  split
  · rfl
  · rw [takeFrame_rename, onFrame_rename]

theorem enterWait_rename : enterWait (s.rename g) = (enterWait s).rename g := rfl

theorem fillStep_rename : fillStep (s.rename g) = (fillStep s).rename g := by
  refine ite_rename g ?_ (ite_rename g (ite_rename g (raiseFatal_rename g s _) ?_) rfl)
  · simp [State.rename, sendDone, State.stopClock, State.stats, State.post, Output.rename, CmdResult.rename]
  · simp [State.rename, State.tx, State.emit, Output.rename]

theorem retxStep_rename : retxStep (s.rename g) = (retxStep s).rename g := by
  refine ite_rename g (ite_rename g (raiseFatal_rename g s _) ?_) rfl
  simp [State.rename, State.tx, State.emit, Output.rename]

theorem sendFinack_rename : sendFinack (s.rename g) = (sendFinack s).rename g := by
  simp [State.rename, sendFinack, State.tx, State.goto, State.stopClock, State.stats, State.post, Output.rename,
    CmdResult.rename]

theorem internalStep_rename : internalStep (s.rename g) = (internalStep s).rename g := by
  simp only [internalStep, rename_lifecycle, rename_phase]
  split
  · exact fillStep_rename g s
  · exact retxStep_rename g s
  · exact sendFinack_rename g s
  · rfl

theorem timerExpiry_rename : timerExpiry (s.rename g) = (timerExpiry s).rename g := by
  refine ite_rename g ?_ rfl
  simp only [rename_lifecycle, rename_phase]
  split
  · exact raiseFatal_rename g s _
  · simp [State.rename, goBackN, State.timerDisarm, State.emit, Output.rename]
  · simp [State.rename, teardownExpiry, State.timerDisarm, State.goto, State.post, State.emit, Output.rename,
      CmdResult.rename]
  · rfl

/-- An instruction with its address renamed. -/
def renameInstr : Instr → Instr
  | .syn a => .syn { a with src := g a.src }
  | .synack a => .synack { a with src := g a.src }
  | .ack a => .ack { a with src := g a.src }
  | .fin a => .fin { a with src := g a.src }
  | .finack a => .finack { a with src := g a.src }
  | .data a => .data { a with src := g a.src }
  | .openConn peer w => .openConn (g peer) w
  | .cmdReserved => .cmdReserved
  | .encode f => .encode f
  | .decode b => .decode b
  | .accept => .accept
  | .sendAll total => .sendAll total
  | .recvAll => .recvAll
  | .close => .close

theorem exec_rename (i : Instr) : exec (renameInstr g i) (s.rename g) = renameOutcome g (exec i s) := by
  cases i with
  | syn a => exact congrArg Host.Outcome.next (receive_rename g s _ a.src)
  | synack a => exact congrArg Host.Outcome.next (receive_rename g s _ a.src)
  | ack a => exact congrArg Host.Outcome.next (receive_rename g s _ a.src)
  | fin a => exact congrArg Host.Outcome.next (receive_rename g s _ a.src)
  | finack a => exact congrArg Host.Outcome.next (receive_rename g s _ a.src)
  | data a => exact congrArg Host.Outcome.next (receive_rename g s _ a.src)
  | cmdReserved => exact congrArg Host.Outcome.next (refuse_rename g s)
  | encode f =>
    refine congrArg Host.Outcome.next (ite_rename g ?_ (refuse_rename g s))
    split
    · exact post_rename g s (.err .invalidPayload)
    · exact post_rename g s (.okBytes _)
  | decode b =>
    refine congrArg Host.Outcome.next (ite_rename g ?_ (refuse_rename g s))
    split
    · exact post_rename g s (.err .shortHeader)
    · exact post_rename g s (.okFrame _)
  | openConn peer w =>
    refine congrArg Host.Outcome.next (ite_rename g ?_ (refuse_rename g s))
    simp [State.rename, State.tx, State.goto, State.timerArm, Output.rename]
  | accept => exact congrArg Host.Outcome.next (ite_rename g rfl (refuse_rename g s))
  | sendAll total => exact congrArg Host.Outcome.next (ite_rename g rfl (refuse_rename g s))
  | recvAll => exact congrArg Host.Outcome.next (ite_rename g rfl (refuse_rename g s))
  | close =>
    refine congrArg Host.Outcome.next (ite_rename g ?_ (refuse_rename g s))
    simp [State.rename, State.tx, State.goto, State.timerArm, Output.rename]

/-! ## A step -/

theorem decodeCommand_rename (code : BitVec 3) (args : CmdArgs) :
    decodeCommand code (renameArgs g args) = renameInstr g (decodeCommand code args) := by
  have hcode : code = 0 ∨ code = 1 ∨ code = 2 ∨ code = 3 ∨ code = 4 ∨ code = 5 ∨ code = 6 ∨ code = 7 := by
    revert code; decide
  rcases hcode with rfl | rfl | rfl | rfl | rfl | rfl | rfl | rfl <;> rfl

theorem engineFetch_rename : (engineFetch (s.rename g)).run = renameOutcome g (engineFetch s).run := by
  rw [engineFetch_run, engineFetch_run]
  simp only [rename_lifecycle, rename_phase, rename_rxQueue]
  cases waitOf s.lifecycle s.phase with
  | none => exact congrArg Host.Outcome.next (internalStep_rename g s)
  | some w =>
    cases s.rxQueue with
    | nil => rfl
    | cons d q =>
      simp only [List.map_cons, Datagram.rename]
      cases codecDecode d.bytes with
      | none => exact congrArg Host.Outcome.next (by rw [rxPop_rename, raiseFatal_rename])
      | some f => exact congrArg Host.Outcome.next (receive_rename g s f d.src)

theorem hostStoreChunk_rename (k : Nat) (b : Bytes) :
    hostStoreChunk k b (s.rename g) = renameOutcome g (hostStoreChunk k b s) := by
  unfold hostStoreChunk
  by_cases h1 : sending s.phase = true
  · rw [if_pos h1, if_pos (show sending (s.rename g).phase = true from h1)]; rfl
  · rw [if_neg h1, if_neg (show ¬ sending (s.rename g).phase = true from h1)]
    by_cases h2 : 1 ≤ k ∧ k ≤ Config.maxChunks
    · rw [if_pos h2, if_pos h2]; rfl
    · rw [if_neg h2, if_neg h2]; rfl

theorem hostFillChunks_rename (data : Bytes) :
    hostFillChunks data (s.rename g) = renameOutcome g (hostFillChunks data s) := by
  unfold hostFillChunks
  by_cases h1 : sending s.phase = true
  · rw [if_pos h1, if_pos (show sending (s.rename g).phase = true from h1)]; rfl
  · rw [if_neg h1, if_neg (show ¬ sending (s.rename g).phase = true from h1)]
    by_cases h2 : (cutData data).length ≤ Config.maxChunks
    · rw [if_pos h2, if_pos h2]; rfl
    · rw [if_neg h2, if_neg h2]; rfl

/-- One move of any agent. Reset leaves the address 0 in the registers the spec says nothing of, so a renaming that moves
0 does not commute with it. -/
theorem moveFetch_rename (m : Move) (h0 : g 0 = 0) :
    (moveFetch (m.rename g) (s.rename g)).run = renameOutcome g (moveFetch m s).run := by
  cases m with
  | engine => exact engineFetch_rename g s
  | command code args =>
    show exec (decodeCommand code (renameArgs g args)) _ = _
    rw [decodeCommand_rename]; exact exec_rename g s _
  | deliver src b => exact congrArg Host.Outcome.next (deliver_rename g s src b)
  | expire => exact congrArg Host.Outcome.next (timerExpiry_rename g s)
  | socketFail => exact congrArg Host.Outcome.next (ite_rename g rfl (raiseFatal_rename g s _))
  | reset => exact congrArg Host.Outcome.next (by simp [resetInput, State.resetWith, State.rename, h0])
  | seam q a => exact congrArg Host.Outcome.next (ite_rename g rfl rfl)
  | storeChunk k b => exact hostStoreChunk_rename g s k b
  | fillChunks data => exact hostFillChunks_rename g s data
  | clock t => rfl

/-- A step commutes with every renaming of the addresses. -/
theorem step_rename (h0 : g 0 = 0) : step (s.rename g) = renameOutcome g (step s) := by
  cases hm : s.moves with
  | nil =>
    rw [step_eq, step_eq]
    simp only [fetch, rename_moves, hm, List.map_nil]
    exact engineFetch_rename g s
  | cons m ms =>
    rw [step_cons hm, step_cons (m := m.rename g) (ms := ms.map (Move.rename g)) (by simp [hm])]
    have h : (s.rename g).afterMove = s.afterMove.rename g := by
      simp [State.afterMove, State.rename]
    rw [h]
    exact moveFetch_rename g s.afterMove m h0

end Sys2Proof.Machine
end

