-- ==== Sys2Proof/Tests/Slice0.lean ====
section
/-! SUPPORT. Tests on fixed values, taken from spec/95_test_vectors.md (the vector's name stands in each docstring) or by
hand from the rule that is named, and for every obligation with hypotheses a concrete state that meets them. -/

namespace Sys2Proof.Tests

open Sys2Proof Sys2Proof.Machine

/-! ## Well-formed instructions -/

/-- The operands of a frame with sequence `seq` and `n` payload bytes. -/
def argsOf (seq : U16) (n : Nat) : FrameArgs := ⟨0, seq, 0, 0, List.replicate n 0x5A⟩

set_option maxRecDepth 10000 in
theorem test_wellFormed_payload_992 : (Instr.data (argsOf 1 992)).wellFormed = true := by decide

set_option maxRecDepth 10000 in
theorem test_illFormed_syn_payload : (Instr.syn (argsOf 0 993)).wellFormed = false := by decide

set_option maxRecDepth 10000 in
theorem test_illFormed_synack_payload : (Instr.synack (argsOf 0 993)).wellFormed = false := by decide

set_option maxRecDepth 10000 in
theorem test_illFormed_ack_payload : (Instr.ack (argsOf 0 993)).wellFormed = false := by decide

set_option maxRecDepth 10000 in
theorem test_illFormed_fin_payload : (Instr.fin (argsOf 0 993)).wellFormed = false := by decide

set_option maxRecDepth 10000 in
theorem test_illFormed_finack_payload : (Instr.finack (argsOf 0 993)).wellFormed = false := by decide

set_option maxRecDepth 10000 in
theorem test_illFormed_data_payload : (Instr.data (argsOf 1 993)).wellFormed = false := by decide

theorem test_illFormed_data_sequence_zero : (Instr.data (argsOf 0 0)).wellFormed = false := by decide

theorem test_notInTable_data_sequence_zero : (Instr.data (argsOf 0 0)).inTable = false := by decide

theorem test_wellFormed_sendAll_65535 : (Instr.sendAll 65535).wellFormed = true := by decide

theorem test_illFormed_sendAll_65536 : (Instr.sendAll 65536).wellFormed = false := by decide

/-- The parameters of the vectors: ADV_WINDOW 15, an unbounded RX queue, the rest by default. -/
def params15 : Config.Params := { advWindow := 15, rxqDepth := none }

/-- R9: the bounds of the parameters, RX_MAX's default, the addresses below the number of them. -/
theorem test_params_bounds :
    params15.wf = true ∧ params15.rxMax = 1000 ∧ { params15 with rxqDepth := some 1, addrCount := some 1 }.wf = true ∧
    { params15 with advWindow := 0 }.wf = false ∧ { params15 with rxqDepth := some 0 }.wf = false ∧
    { params15 with rxMax := 999 }.wf = false ∧ { params15 with addrCount := some 0 }.wf = false ∧
    { params15 with addrCount := some 8 }.isAddr 7 = true ∧ { params15 with addrCount := some 8 }.isAddr 8 = false := by
  decide

/-! ## Decoding: each constructor from the words the spec writes for it -/

/-- V1 / D7: SYN with one trailing byte. -/
theorem test_decode_syn : Sys2Proof.decode (.datagram 5 [0x00, 0x00, 0x00, 0x00, 0x00, 0x02, 0x00, 0x00, 0x58]) =
    .ok (.syn ⟨5, 0, 0, 0, [0x58]⟩) := by decide

/-- D1: SYNACK. -/
theorem test_decode_synack : Sys2Proof.decode (.datagram 5 [0x00, 0x00, 0x00, 0x01, 0x00, 0x0A, 0x00, 0x0F]) =
    .ok (.synack ⟨5, 0, 1, 15, []⟩) := by decide

/-- V4: data ACK. -/
theorem test_decode_ack : Sys2Proof.decode (.datagram 5 [0x00, 0x00, 0x00, 0x05, 0x00, 0x08, 0x00, 0x0F]) =
    .ok (.ack ⟨5, 0, 5, 15, []⟩) := by decide

/-- Q9: FIN with sequence 4, window 3 and a payload. -/
theorem test_decode_fin : Sys2Proof.decode (.datagram 5 [0x00, 0x04, 0x00, 0x00, 0x00, 0x01, 0x00, 0x03, 0x44]) =
    .ok (.fin ⟨5, 4, 0, 3, [0x44]⟩) := by decide

/-- W6: FINACK with acknowledgment 3. -/
theorem test_decode_finack : Sys2Proof.decode (.datagram 5 [0x00, 0x00, 0x00, 0x03, 0x00, 0x09, 0x00, 0x00]) =
    .ok (.finack ⟨5, 0, 3, 0, []⟩) := by decide

/-- D2: DATA. -/
theorem test_decode_data : Sys2Proof.decode (.datagram 5 [0x00, 0x01, 0x00, 0x00, 0x00, 0x00, 0x00, 0x03, 0x41, 0x42]) =
    .ok (.data ⟨5, 1, 0, 3, [0x41, 0x42]⟩) := by decide

/-- V13: a header that tells the byte orders apart; flags 0x0100 is no kind of the table. -/
theorem test_decode_byte_order : Sys2Proof.decode (.datagram 5 [0x01, 0x00, 0x00, 0x01, 0x01, 0x00, 0x00, 0xFF]) =
    .error (.otherKind ⟨256, 1, 0x0100, 0x00FF, []⟩) := by decide

/-- V12, R96: flags 0 with sequence 0 is OTHER. -/
theorem test_decode_other : Sys2Proof.decode (.datagram 5 [0x00, 0x00, 0x00, 0x00, 0x00, 0x00, 0x00, 0x00]) =
    .error (.otherKind ⟨0, 0, 0, 0, []⟩) := by decide

/-- D5: seven bytes. -/
theorem test_decode_short : Sys2Proof.decode (.datagram 5 [0x00, 0x00, 0x00, 0x00, 0x00, 0x01, 0x00]) =
    .error .shortHeader := by decide

/-- Argument lines that hold something on every line. -/
def lines : CmdArgs := ⟨⟨1, 2, 3, 4, [5]⟩, [6, 7], 8, 9, 10⟩

/-- R103, R104: the eight command codes, each with its own argument lines. -/
theorem test_decode_commands :
    Sys2Proof.decode (.command 0 lines) = .ok .cmdReserved ∧
    Sys2Proof.decode (.command 1 lines) = .ok (.encode ⟨1, 2, 3, 4, [5]⟩) ∧
    Sys2Proof.decode (.command 2 lines) = .ok (.decode [6, 7]) ∧
    Sys2Proof.decode (.command 3 lines) = .ok (.openConn 8 9) ∧
    Sys2Proof.decode (.command 4 lines) = .ok .accept ∧
    Sys2Proof.decode (.command 5 lines) = .ok (.sendAll 10) ∧
    Sys2Proof.decode (.command 6 lines) = .ok .recvAll ∧
    Sys2Proof.decode (.command 7 lines) = .ok .close := by decide

/-- R93, R103: the table words of the commands and of the frame kinds (V1 to V7 as words). -/
theorem test_decodeTableWord_rows :
    [0, 1, 2, 3, 4, 5, 6, 7].map (decodeTableWord 8) =
      [some .cmdReserved, some (.encode Frame.zero), some (.decode []), some (.openConn 0 0), some .accept,
        some (.sendAll 0), some .recvAll, some .close] ∧
    decodeTableWord 64 0x0000000000020000 = some (.syn ⟨0, 0, 0, 0, []⟩) ∧
    decodeTableWord 64 0x00000001000A000F = some (.synack ⟨0, 0, 1, 15, []⟩) ∧
    decodeTableWord 64 0x0000000100080000 = some (.ack ⟨0, 0, 1, 0, []⟩) ∧
    decodeTableWord 64 0x0000000000010000 = some (.fin ⟨0, 0, 0, 0, []⟩) ∧
    decodeTableWord 64 0x0000000000090000 = some (.finack ⟨0, 0, 0, 0, []⟩) ∧
    decodeTableWord 64 0x0001000000000003 = some (.data ⟨0, 1, 0, 3, []⟩) := by decide

/-- V7, V8: the encoder. -/
theorem test_encode_words :
    Sys2Proof.encode (.data ⟨5, 1, 0, 3, [0x41, 0x42]⟩) =
      .datagram 5 [0x00, 0x01, 0x00, 0x00, 0x00, 0x00, 0x00, 0x03, 0x41, 0x42] ∧
    codecEncode ⟨0x1234, 0xABCD, 0xFFFF, 0x8001, []⟩ = some [0x12, 0x34, 0xAB, 0xCD, 0xFF, 0xFF, 0x80, 0x01] := by
  decide

/-- D1, D2, D3 as header words. -/
theorem test_header_words :
    Frame.headerWord ⟨0, 1, 0x000A, 15, []⟩ = 0x00000001000A000F#64 ∧
    Frame.headerWord ⟨1, 0, 0, 3, []⟩ = 0x0001000000000003#64 ∧
    Frame.headerWord ⟨0x1234, 0xABCD, 0xFFFF, 0x8001, []⟩ = 0x1234ABCDFFFF8001#64 := by decide

/-! ## States of the vectors: ADV_WINDOW 15, RX_MAX 1000, RXQ_DEPTH unbounded; Sa = 7, Ca = 9 -/

/-- After reset, with the parameters of the vectors. -/
def idle : State := { State.reset with params := params15 }

/-- After L1. -/
def synSent : State :=
  { idle with role := .client, peer := 7, cfgWindow := 3, lifecycle := .synSent, phase := .hsWait, timerArmed := true }

/-- After L20. -/
def listening : State := { idle with role := .server, phase := .listen }

/-- After L21. -/
def synRcvd : State := { idle with role := .server, peer := 9, lifecycle := .synRcvd, phase := .hsWait }

/-- After L2: an established client with window 3, and one-byte chunks 1 to 5 (S1). -/
def client : State :=
  { idle with
    role := .client, peer := 7, cfgWindow := 3, peerWindow := 15, negWindow := 3, lifecycle := .established,
    chunks := [(1, [0x41]), (2, [0x42]), (3, [0x43]), (4, [0x44]), (5, [0x45])] }

/-- After L26. -/
def server : State := { idle with role := .server, peer := 9, lifecycle := .established }

/-- SEND_ALL(5) in FILL with the given BASE and NEXT. -/
def filling (base next : U17) : State :=
  { client with phase := .fill, total := 5, base := base, nextSeq := next, bytes := base.setWidth 32 - 1 }

/-- W1's start: WAIT with BASE 2, NEXT 5. -/
def waiting : State := { filling 2 5 with phase := .wait, timerArmed := true }

/-- After W1. -/
def resending : State := { filling 2 5 with phase := .retx, rtx := 2 }

/-- RECV_ALL in progress. -/
def receiving (expected : U17) : State := { server with phase := .recv, expected := expected }

/-- After L32. -/
def finRcvd : State := { receiving 4 with lifecycle := .finRcvd }

/-- After L13. -/
def closing : State := { client with lifecycle := .finSent, phase := .finWait, timerArmed := true }

/-- A closed client. -/
def closed : State := { client with lifecycle := .closed }

/-- `s` with one datagram from address 9 in the RX queue. -/
def queued (s : State) (b : Bytes) : State := { s with rxQueue := [⟨9, b⟩] }

/-- The state that an outcome answers, if it does. -/
def after (o : Host.Outcome State Fault Refusal) : Option State :=
  match o with
  | .next t => some t
  | .fault _ => none
  | .refused _ => none

/-- What most vectors list: STATE, PHASE, ERR, TIMER_ARMED, the TX history, the results. -/
structure View where
  lifecycle : Lifecycle
  phase : Phase
  err : ErrCode
  timerArmed : Bool
  tx : List (Addr × Bytes)
  results : List CmdResult
  deriving DecidableEq, Repr

/-- The vectors' columns of a state. -/
def view (s : State) : View := ⟨s.lifecycle, s.phase, s.err, s.timerArmed, txHistory s.out, results s.out⟩

/-- The sender's registers BASE, NEXT, RTX and BYTES. -/
structure SenderView where
  base : U17
  next : U17
  rtx : U17
  bytes : U32
  deriving DecidableEq, Repr

/-- The sender's columns of a state. -/
def sender (s : State) : SenderView := ⟨s.base, s.nextSeq, s.rtx, s.bytes⟩

/-! ## One step per instruction -/

/-- L21. -/
theorem test_syn_at_listen :
    (after (exec (.syn ⟨9, 0, 0, 0, []⟩) (queued listening [0x00, 0x00, 0x00, 0x00, 0x00, 0x02, 0x00, 0x00]))).map
      (fun t => (view t, t.peer, t.rxQueue)) =
    some (⟨.synRcvd, .hsWait, .none, false, [(9, [0x00, 0x00, 0x00, 0x01, 0x00, 0x0A, 0x00, 0x0F])], []⟩, 9, []) := by
  decide

/-- L29: a duplicate SYN closes the server. -/
theorem test_syn_at_third :
    (after (exec (.syn ⟨9, 0, 0, 0, []⟩) synRcvd)).map view =
    some ⟨.closed, .none, .handshakeProtocolError, false, [], [.err .handshakeProtocolError]⟩ := by decide

/-- L3: the peer's window 2 is the minimum. -/
theorem test_synack_at_reply :
    (after (exec (.synack ⟨9, 0, 1, 2, []⟩) synSent)).map (fun t => (view t, t.peerWindow, t.negWindow)) =
    some (⟨.established, .none, .none, false, [(7, [0x00, 0x00, 0x00, 0x01, 0x00, 0x08, 0x00, 0x00])], [.okWindow 2]⟩,
      2, 2) := by decide

/-- L6: peer sequence 65535 is acknowledged with 0. -/
theorem test_synack_wraps :
    (after (exec (.synack ⟨9, 65535, 1, 15, []⟩) synSent)).map view =
    some ⟨.established, .none, .none, false, [(7, [0x00, 0x00, 0x00, 0x00, 0x00, 0x08, 0x00, 0x00])],
      [.okWindow 3]⟩ := by decide

/-- X1: A = 3 moves BASE from 2 to 4; X6: A = NEXT is ignored, and the wait ends all the same. -/
theorem test_ack_in_wait :
    (after (exec (.ack ⟨9, 0, 3, 15, []⟩) waiting)).map (fun t => (sender t, t.phase, t.timerArmed)) =
      some (⟨4, 5, 1, 3⟩, .fill, false) ∧
    (after (exec (.ack ⟨9, 0, 5, 15, []⟩) waiting)).map (fun t => (sender t, t.phase, t.timerArmed)) =
      some (⟨2, 5, 1, 1⟩, .fill, false) := by decide

/-- L27: the third frame from another address becomes PEER. -/
theorem test_ack_at_third :
    (after (exec (.ack ⟨8, 0, 1, 0, []⟩) synRcvd)).map (fun t => (view t, t.peer)) =
    some (⟨.established, .none, .none, false, [], [.okPeer 8]⟩, 8) := by decide

/-- Q6: the FIN test comes before the drop rule. -/
theorem test_fin_before_drop :
    (after (exec (.fin ⟨9, 0, 0, 0, []⟩) { receiving 1 with dropArmed := true, dropSeq := 0 })).map
      (fun t => (view t, t.dropArmed, traceEvents t.out)) =
    some (⟨.finRcvd, .recv, .none, false, [], []⟩, true, [.finReceived]) := by decide

/-- L14. -/
theorem test_finack_closes :
    (after (exec (.finack ⟨9, 0, 0, 0, []⟩) closing)).map view =
    some ⟨.closed, .none, .none, false, [], [.okClosed]⟩ := by decide

/-- Q8: a FINACK is a FIN for the receiver. -/
theorem test_finack_at_receiver :
    (after (exec (.finack ⟨9, 0, 0, 0, []⟩) (receiving 4))).map view =
    some ⟨.finRcvd, .recv, .none, false, [], []⟩ := by decide

/-- Q10: the last sequence; EXPECTED needs 17 bits. -/
theorem test_data_last_sequence :
    (after (exec (.data ⟨9, 65535, 0, 3, [0x5A]⟩) (receiving 65535))).map
      (fun t => (txHistory t.out, sinkChunks t.out, t.expected, t.bytes)) =
    some ([(9, [0x00, 0x00, 0xFF, 0xFF, 0x00, 0x08, 0x00, 0x0F])], [[0x5A]], 65536, 1) := by decide

/-- Q5: the drop rule fires on a sequence that is not the expected one. -/
theorem test_data_dropped :
    (after (exec (.data ⟨9, 3, 0, 3, [0x43]⟩) { receiving 1 with dropArmed := true, dropSeq := 3 })).map
      (fun t => (t.expected, t.dropArmed, t.out)) =
    some (1, false, [.trace (.dropped 3)]) := by decide

/-- A1, A7: code 0 is refused. -/
theorem test_cmdReserved :
    (after (exec .cmdReserved closed)).map view = some ⟨.closed, .none, .none, false, [], [.err .cmdRefused]⟩ := by decide

/-- K1. -/
theorem test_encode :
    (after (exec (.encode ⟨0, 0, 0x0002, 0, []⟩) idle)).map (fun t => t.out) =
    some [.result (.okBytes [0x00, 0x00, 0x00, 0x00, 0x00, 0x02, 0x00, 0x00])] := by decide

set_option maxRecDepth 10000 in
/-- K2. -/
theorem test_encode_overlong :
    (after (exec (.encode ⟨1, 0, 0, 3, List.replicate 993 0⟩) idle)).map view =
    some ⟨.idle, .none, .none, false, [], [.err .invalidPayload]⟩ := by decide

/-- K4. -/
theorem test_decode_command :
    (after (exec (.decode [0x00, 0x00, 0x00, 0x01, 0x00, 0x0A, 0x00, 0x0F]) { closed with err := .handshakeTimeout })).map
      (fun t => (t.rxf, t.err, t.out)) =
    some (Frame.zero, .handshakeTimeout, [.result (.okFrame ⟨0, 1, 0x000A, 15, []⟩)]) := by decide

/-- K5. -/
theorem test_decode_command_busy :
    (after (exec (.decode []) waiting)).map view = some ⟨.established, .wait, .none, true, [], [.err .cmdRefused]⟩ := by
  decide

/-- L1. -/
theorem test_open :
    (after (exec (.openConn 7 3) idle)).map (fun t => (view t, t.role, t.peer, t.cfgWindow)) =
    some (⟨.synSent, .hsWait, .none, true, [(7, [0x00, 0x00, 0x00, 0x00, 0x00, 0x02, 0x00, 0x00])], []⟩, .client, 7, 3) := by
  decide

/-- A2. -/
theorem test_open_established :
    (after (exec (.openConn 7 3) client)).map view =
    some ⟨.established, .none, .none, false, [], [.err .cmdRefused]⟩ := by decide

/-- L20. -/
theorem test_accept :
    (after (exec .accept idle)).map (fun t => (view t, t.role)) =
    some (⟨.idle, .listen, .none, false, [], []⟩, .server) := by decide

/-- S1 step 0. -/
theorem test_sendAll :
    (after (exec (.sendAll 5) { client with now := 20 })).map (fun t => (sender t, t.total, t.phase, t.t0, t.out)) =
    some (⟨1, 1, 1, 0⟩, 5, .fill, 20, []) := by decide

/-- A4 and A5, and the edges that are accepted. -/
theorem test_sendAll_edges :
    (after (exec (.sendAll 65536) client)).map (fun t => t.phase) = some .none ∧
    (after (exec (.sendAll 1) { client with negWindow := 0 })).map (fun t => t.phase) = some .none ∧
    (after (exec (.sendAll 65535) client)).map (fun t => t.phase) = some .fill ∧
    (after (exec (.sendAll 0) { client with negWindow := 0 })).map (fun t => t.phase) = some .fill := by decide

/-- P1 step 6. -/
theorem test_recvAll :
    (after (exec .recvAll { server with expected := 9, bytes := 9, now := 5 })).map
      (fun t => (t.phase, t.expected, t.bytes, t.t0, t.out)) = some (.recv, 1, 0, 5, []) := by decide

/-- L13. -/
theorem test_close :
    (after (exec .close client)).map view =
    some ⟨.finSent, .finWait, .none, true, [(7, [0x00, 0x00, 0x00, 0x00, 0x00, 0x01, 0x00, 0x00])], []⟩ := by decide

/-- A3: a server has no CLOSE. -/
theorem test_close_server :
    (after (exec .close server)).map view = some ⟨.established, .none, .none, false, [], [.err .cmdRefused]⟩ := by decide

/-! ## Steps that are no instruction -/

/-- F1 to F5, by where the step goes: DATA(1), wait, DATA(4), wait, the end. -/
theorem test_fill_dispatch :
    [(1, 1), (1, 4), (2, 4), (4, 6), (6, 6)].map (fun p =>
      (after (step (filling p.1 p.2))).map fun t => (t.phase, t.nextSeq, txSeqs t.out)) =
    [some (.fill, 2, [1]), some (.wait, 4, []), some (.fill, 5, [4]), some (.wait, 6, []), some (.none, 6, [])] := by
  decide

/-- W1. -/
theorem test_expire_wait :
    (after (step { waiting with moves := [.expire] })).map (fun t => (view t, sender t, traceEvents t.out)) =
    some (⟨.established, .retx, .none, false, [], []⟩, ⟨2, 5, 2, 1⟩, [.dataTimeout 2 5]) := by decide

/-- W2, its first step. -/
theorem test_resend :
    (after (step resending)).map (fun t => (sender t, txHistory t.out)) =
    some (⟨2, 5, 3, 1⟩, [(7, [0x00, 0x02, 0x00, 0x00, 0x00, 0x00, 0x00, 0x03, 0x42])]) := by decide

/-- W7: five bytes in WAIT. -/
theorem test_short_in_wait :
    (after (step { queued waiting [1, 2, 3, 4, 5] with now := 30 })).map view =
    some ⟨.closed, .none, .shortHeader, false, [], [.errSend .shortHeader ⟨1, 30⟩ 1]⟩ := by decide

/-- L8: SYN-ACK with FIN and RST set too, a frame of kind OTHER. -/
theorem test_other_kind_taken :
    (after (step (queued synSent [0x00, 0x00, 0x00, 0x01, 0x00, 0x0F, 0x00, 0x0F]))).map view =
    some ⟨.established, .none, .none, false, [(7, [0x00, 0x00, 0x00, 0x01, 0x00, 0x08, 0x00, 0x00])], [.okWindow 3]⟩ := by
  decide

/-- Q7: ACK bit set, sequence 1, payload "X": accepted. -/
theorem test_ack_frame_delivered :
    (after (step (queued (receiving 1) [0x00, 0x01, 0x00, 0x00, 0x00, 0x08, 0x00, 0x00, 0x58]))).map
      (fun t => (txHistory t.out, sinkChunks t.out, t.expected)) =
    some ([(9, [0x00, 0x00, 0x00, 0x01, 0x00, 0x08, 0x00, 0x0F])], [[0x58]], 2) := by decide

/-- L33. -/
theorem test_finack_sent :
    (after (step { finRcvd with bytes := 3, t0 := 5, now := 30 })).map view =
    some ⟨.closed, .none, .none, false, [(9, [0x00, 0x00, 0x00, 0x00, 0x00, 0x09, 0x00, 0x00])],
      [.okStats ⟨3, 25⟩]⟩ := by decide

/-- L12, L17: the two expiries that end a command. -/
theorem test_expire_ends :
    (after (step { synSent with moves := [.expire] })).map view =
      some ⟨.closed, .none, .handshakeTimeout, false, [], [.err .handshakeTimeout]⟩ ∧
    (after (step { closing with moves := [.expire] })).map view =
      some ⟨.closed, .none, .none, false, [], [.okTeardownTimeout]⟩ := by decide

/-- W9, E2. -/
theorem test_socket_failure :
    (after (step { waiting with moves := [.socketFail] })).map view =
      some ⟨.closed, .none, .socketError, false, [], [.errSend .socketError ⟨1, 0⟩ 1]⟩ ∧
    (after (step { client with moves := [.socketFail] })).map view =
      some ⟨.established, .none, .none, false, [], []⟩ := by decide

/-- E7: reset in WAIT; the outputs are kept and no result is posted. -/
theorem test_reset :
    (after (step { waiting with moves := [.reset], out := [.sink [1]], err := .none })).map
      (fun t => (view t, t.role, sender t, t.out)) =
    some (⟨.idle, .none, .none, false, [], []⟩, .none, ⟨1, 1, 1, 0⟩, [.sink [1]]) := by decide

/-- R70: the queue of depth 1 loses the second datagram; R67: the cut at RX_MAX. -/
theorem test_deliver :
    (after (step { queued { idle with params := { params15 with rxqDepth := some 1 } } [1] with moves := [.deliver 9 [2]] })).map
      (fun t => t.rxQueue) = some [⟨9, [1]⟩] ∧
    (State.deliver 9 [1, 2, 3] { idle with params := { params15 with rxMax := 2 } }).rxQueue = [⟨9, [1, 2]⟩] := by decide

/-- R63, on data of five bytes, and the host's two writes of chunk memory. -/
theorem test_chunks :
    (after (step { idle with moves := [.fillChunks [1, 2, 3, 4, 5]] })).map (fun t => t.chunks) =
      some [(1, [1, 2, 3, 4, 5])] ∧
    (after (step { client with moves := [.storeChunk 2 [9, 9]] })).map (fun t => chunkRead t.chunks 2) = some [9, 9] ∧
    (after (step { client with moves := [.storeChunk 2 []] })).map (fun t => t.chunks.length) = some 4 ∧
    (after (step { waiting with moves := [.storeChunk 2 [9]] })).map (fun t => t.chunks) = none ∧
    (after (step { client with moves := [.storeChunk 65536 [9]] })).map (fun t => t.chunks) = none := by decide

/-- A table word runs as the first instruction after reset: SYN (R147) and OPEN (R141). -/
theorem test_withFetchWord :
    (after (step (State.reset.withFetchWord 64 0x0000000000020000))).map (fun t => (t.lifecycle, t.phase, t.rxf.flags)) =
      some (.synRcvd, .hsWait, 0x0002) ∧
    (after (step (State.reset.withFetchWord 8 3))).map (fun t => (t.lifecycle, t.phase, t.role)) =
      some (.synSent, .hsWait, .client) := by decide

/-! ## Witnesses: for every obligation with hypotheses, a state and operands that meet them -/

/-- DATA(k) of S1 on the TX port. -/
def sentData (k : U16) : Output := .tx 7 (Frame.bytes ⟨k, 0, 0, 3, [0x40 + k.setWidth 8]⟩)

/-- The sender of S2a after step 8: DATA(1) to DATA(4) were sent, RETX begins. -/
def resendingSent : State := { resending with out := [sentData 1, sentData 2, sentData 3, sentData 4] }

/-- The sender of S1 after step 15. -/
def lastFill : State := { filling 6 6 with out := (List.range' 1 5).map fun k => sentData (BitVec.ofNat 16 k) }

/-- The receiver of P4 after its second pop. -/
def receivedTwo : State := { receiving 3 with bytes := 2, out := [.sink [0x41], .sink [0x42]] }

/-- An invariant state with no sender and no receiver at work, and an unbounded queue that is empty. -/
theorem inv_quiet {s : State} (hp : s.params.wf = true) (hd : s.params.rxqDepth = none) (ha : s.params.addrCount = none)
    (hc : legal s.lifecycle s.phase s.role = true) (ht : s.timerArmed = timedWait s.lifecycle s.phase)
    (he : s.err = .none) (hm : Memory.wf s.chunks) (hq : s.rxQueue = [])
    (hn : s.role ≠ .client → s.peerWindow = 0 ∧ s.negWindow = 0)
    (hw : s.negWindow.toNat = min s.cfgWindow.toNat s.peerWindow.toNat ∨ s.role ≠ .client)
    (hs : sending s.phase = true → SenderInv s)
    (hr : s.phase = .recv → 1 ≤ s.expected.toNat ∧ s.expected.toNat ≤ 65536) : s.Inv where
  params := hp
  addresses := by simp [Config.Params.isAddr, ha]
  combination := hc
  timer := ht
  err := .inl he
  chunks := hm
  queued_len := by simp [hq]
  queue_len := by simp [hd]
  no_window := hn
  window := fun h _ => hw.resolve_right (fun h' => h' h)
  sender := hs
  receiver := hr

/-- With no move to come the host does not assert reset. -/
theorem not_reset {s : State} (h : s.moves = []) : ¬ resetsNext s := by
  rintro ⟨ms, h'⟩; rw [h] at h'; cases h'

theorem witness_inv_closed : closed.Inv :=
  inv_quiet (by decide) rfl rfl (by decide) (by decide) rfl (by decide) rfl (by decide) (by decide)
    (fun h => absurd h (by decide)) (by decide)

theorem witness_inv_idle : idle.Inv :=
  inv_quiet (by decide) rfl rfl (by decide) (by decide) rfl (by decide) rfl (by decide) (by decide)
    (fun h => absurd h (by decide)) (by decide)

theorem witness_inv_receivedTwo : receivedTwo.Inv :=
  inv_quiet (by decide) rfl rfl (by decide) (by decide) rfl (by decide) rfl (by decide) (by decide)
    (fun h => absurd h (by decide)) (by decide)

theorem witness_inv_filling : (filling 2 4).Inv :=
  inv_quiet (by decide) rfl rfl (by decide) (by decide) rfl (by decide) rfl (by decide) (by decide)
    (fun _ => by constructor <;> decide) (by decide)

theorem witness_inv_lastFill : lastFill.Inv :=
  inv_quiet (by decide) rfl rfl (by decide) (by decide) rfl (by decide) rfl (by decide) (by decide)
    (fun _ => by constructor <;> decide) (by decide)

theorem witness_inv_resendingSent : resendingSent.Inv :=
  inv_quiet (by decide) rfl rfl (by decide) (by decide) rfl (by decide) rfl (by decide) (by decide)
    (fun _ => by constructor <;> decide) (by decide)

/-- No chunk of S1 is over 992 bytes. -/
theorem client_chunks_fit (k : Nat) : (chunkRead client.chunks k).length ≤ 992 := by
  simp only [client, chunkRead]
  repeat' split
  all_goals decide

set_option maxRecDepth 10000 in
theorem witness_CodecRoundTrip : (Frame.payload ⟨65535, 65535, 65535, 65535, List.replicate 992 0⟩).length ≤ 992 := by
  decide

theorem witness_EncodeLayoutAndLength : codecEncode ⟨256, 1, 0x0100, 0x00FF, []⟩ =
    some [0x01, 0x00, 0x00, 0x01, 0x01, 0x00, 0x00, 0xFF] := by decide

set_option maxRecDepth 10000 in
theorem witness_EncodeInvertsDecode :
    (8 ≤ (List.replicate 8 (0 : Byte)).length ∧ (List.replicate 8 (0 : Byte)).length ≤ 1000) ∧
    (8 ≤ (List.replicate 1000 (0 : Byte)).length ∧ (List.replicate 1000 (0 : Byte)).length ≤ 1000) ∧
    1000 < (List.replicate 1001 (0 : Byte)).length ∧ (List.replicate 992 (0 : Byte)).length ≤ 992 := by decide

theorem witness_DecodeOfEncodeIsIdentity : (Instr.data ⟨9, 1, 0, 3, [0x41]⟩).inTable = true := by decide

theorem witness_EncodeOfDecodeIsIdentity :
    Sys2Proof.decode (.datagram 9 [0xFF, 0xFF, 0x00, 0x00, 0x00, 0x00, 0x00, 0x03]) = .ok (.data ⟨9, 65535, 0, 3, []⟩) := by
  decide

theorem witness_StepRunsDecodedInstruction :
    (({ idle with moves := [.command 3 lines, .expire] } : State).moves = .command 3 lines :: [.expire] ∧
      Sys2Proof.decode (.command 3 lines) = .ok (.openConn 8 9)) ∧
    (enginesTurn (queued listening [0x00, 0x00, 0x00, 0x00, 0x00, 0x02, 0x00, 0x00]) ∧
      waitOf listening.lifecycle listening.phase ≠ none ∧
      Sys2Proof.decode (.datagram 9 [0x00, 0x00, 0x00, 0x00, 0x00, 0x02, 0x00, 0x00]) = .ok (.syn ⟨9, 0, 0, 0, []⟩)) :=
  ⟨⟨rfl, by decide⟩, .inl rfl, by decide, by decide⟩

set_option maxRecDepth 10000 in
theorem witness_EncodeCommandPostsBytes :
    (closed.phase = .none ∧ (List.replicate 992 (0 : Byte)).length ≤ 992) ∧
    (idle.phase = .none ∧ 992 < (List.replicate 993 (0 : Byte)).length) ∧ waiting.phase ≠ .none := by decide

theorem witness_DecodeCommandPostsFrame :
    (idle.phase = .none ∧ codecDecode [0, 1, 0, 0, 0, 0, 0, 3] = some ⟨1, 0, 0, 3, []⟩) ∧
    (idle.phase = .none ∧ [(0 : Byte), 0, 0, 0, 0, 1, 0].length < 8) ∧ waiting.phase ≠ .none := by decide

theorem witness_CommandsRefusedOutsideTable :
    (isCommand (.sendAll 65536) = true ∧ ¬ accepted (.sendAll 65536) client) ∧
    (isCommand (.encode Frame.zero) = true ∧ ¬ accepted (.encode Frame.zero) waiting) := by
  simp [isCommand, accepted, client, waiting]

theorem witness_OpenSendsSyn_AcceptListens :
    (idle.phase = .none ∧ idle.lifecycle = .idle ∧ idle.role = .none) ∧
    (listening.phase ≠ .none ∧ client.lifecycle ≠ .idle ∧ closed.role ≠ .none) ∧
    (listening.rxQueue = [] ∧ listening.moves = []) := by decide

theorem witness_SendAllStarts :
    (client.phase = .none ∧ client.lifecycle = .established ∧ client.role = .client ∧ 65535 ≤ 65535 ∧
      1 ≤ client.negWindow.toNat) ∧
    (({ client with negWindow := 0 } : State).phase = .none ∧ (0 : Nat) ≤ 65535) ∧
    (waiting.phase ≠ .none ∧ closed.lifecycle ≠ .established ∧ server.role ≠ .client ∧ 65535 < 65536 ∧
      ({ client with negWindow := 0 } : State).negWindow = 0) := by decide

theorem witness_RecvAllStarts :
    (server.phase = .none ∧ server.lifecycle = .established ∧ server.role = .server) ∧
    ((receiving 1).phase ≠ .none ∧ idle.lifecycle ≠ .established ∧ client.role ≠ .server) := by decide

theorem witness_CloseSendsFin :
    (client.phase = .none ∧ client.lifecycle = .established ∧ client.role = .client) ∧
    (waiting.phase ≠ .none ∧ closed.lifecycle ≠ .established ∧ server.role ≠ .client) := by decide

/-- L24: SYN and FIN set. -/
theorem witness_ServerAnswersSyn :
    enginesTurn (queued listening [0, 0, 0, 0, 0, 3, 0, 0]) ∧ listening.lifecycle = .idle ∧ listening.phase = .listen ∧
    codecDecode [0, 0, 0, 0, 0, 3, 0, 0] = some ⟨0, 0, 3, 0, []⟩ ∧ (3 : U16).getLsbD 1 = true :=
  ⟨.inl rfl, by decide⟩

/-- L8, and L5's window 0. -/
theorem witness_ClientEstablishesOnSynack :
    enginesTurn (queued synSent [0, 0, 0, 1, 0, 0x0F, 0, 0]) ∧ synSent.lifecycle = .synSent ∧ synSent.phase = .hsWait ∧
    codecDecode [0, 0, 0, 1, 0, 0x0F, 0, 0] = some ⟨0, 1, 0x0F, 0, []⟩ ∧ (0x0F : U16).getLsbD 1 = true ∧
    (0x0F : U16).getLsbD 3 = true ∧ (0 : U16).toNat = min synSent.cfgWindow.toNat (0 : U16).toNat :=
  ⟨.inl rfl, by decide⟩

theorem witness_ServerEstablishesOnAck :
    enginesTurn (queued synRcvd [0, 0, 0, 1, 0, 9, 0, 0]) ∧ synRcvd.lifecycle = .synRcvd ∧ synRcvd.phase = .hsWait ∧
    codecDecode [0, 0, 0, 1, 0, 9, 0, 0] = some ⟨0, 1, 9, 0, []⟩ ∧ (9 : U16).getLsbD 3 = true :=
  ⟨.inl rfl, by decide⟩

/-- L9 and L10 at the client, L25 at the listening server, L29 at the server's second wait. -/
theorem witness_WrongHandshakeFrameIsFatal :
    (synSent.lifecycle = .synSent ∧ synSent.phase = .hsWait ∧ (8 : U16).getLsbD 1 = false ∧
      (2 : U16).getLsbD 3 = false) ∧
    (listening.lifecycle = .idle ∧ listening.phase = .listen ∧ (0 : U16).getLsbD 1 = false) ∧
    (synRcvd.lifecycle = .synRcvd ∧ synRcvd.phase = .hsWait ∧ (2 : U16).getLsbD 3 = false) ∧
    codecDecode [0, 0, 0, 1, 0, 8, 0, 0] = some ⟨0, 1, 8, 0, []⟩ := by decide

theorem witness_ClientClosesOnAck :
    enginesTurn (queued closing [0, 0, 0, 5, 0, 8, 0, 0x0F]) ∧ closing.lifecycle = .finSent ∧ closing.phase = .finWait ∧
    codecDecode [0, 0, 0, 5, 0, 8, 0, 0x0F] = some ⟨0, 5, 8, 15, []⟩ ∧ (8 : U16).getLsbD 3 = true :=
  ⟨.inl rfl, by decide⟩

/-- L16, W4. -/
theorem witness_FrameWithoutAckDiscarded :
    enginesTurn (queued closing [0, 1, 0, 0, 0, 0, 0, 3]) ∧
    (closing.lifecycle = .finSent ∧ closing.phase = .finWait) ∧
    (waiting.lifecycle = .established ∧ waiting.phase = .wait) ∧
    codecDecode [0, 1, 0, 0, 0, 0, 0, 3] = some ⟨1, 0, 0, 3, []⟩ ∧ (0 : U16).getLsbD 3 = false :=
  ⟨.inl rfl, by decide⟩

theorem witness_FinackEndsReceiver : enginesTurn finRcvd ∧ finRcvd.lifecycle = .finRcvd ∧ finRcvd.phase = .recv :=
  ⟨.inl rfl, by decide⟩

/-- One queued frame, and the six waits of the table, with a flags value that passes and one that does not. -/
theorem witness_ReceiveTestTable :
    enginesTurn (queued synSent [0, 0, 0, 0, 0, 0x0B, 0, 0]) ∧
    codecDecode [0, 0, 0, 0, 0, 0x0B, 0, 0] = some ⟨0, 0, 0x0B, 0, []⟩ ∧
    (synSent.lifecycle = .synSent ∧ synSent.phase = .hsWait) ∧
    (listening.lifecycle = .idle ∧ listening.phase = .listen) ∧
    (synRcvd.lifecycle = .synRcvd ∧ synRcvd.phase = .hsWait) ∧
    (waiting.lifecycle = .established ∧ waiting.phase = .wait) ∧
    (closing.lifecycle = .finSent ∧ closing.phase = .finWait) ∧
    ((receiving 1).lifecycle = .established ∧ (receiving 1).phase = .recv) ∧
    ((0x0B : U16) &&& 0x000A = 0x000A ∧ (0x08 : U16) &&& 0x000A ≠ 0x000A ∧ (0x02 : U16) &&& 0x000A ≠ 0x000A) ∧
    ((0x03 : U16) &&& 0x0002 = 0x0002 ∧ (0x0D : U16) &&& 0x0002 ≠ 0x0002) ∧
    ((0x0F : U16) &&& 0x0008 = 0x0008 ∧ (0x07 : U16) &&& 0x0008 ≠ 0x0008) ∧
    ((0x09 : U16) &&& 0x0001 = 0x0001 ∧ (0x0A : U16) &&& 0x0001 ≠ 0x0001) :=
  ⟨.inl rfl, by decide⟩

/-- F5, F3 and F1, F2 and F4, and TOTAL = BASE. -/
theorem witness_FillDispatch :
    enginesTurn (filling 6 6) ∧ (filling 6 6).phase = .fill ∧ (filling 6 6).total.toNat < (filling 6 6).base.toNat ∧
    ((filling 2 4).base.toNat ≤ (filling 2 4).total.toNat ∧
      (filling 2 4).nextSeq.toNat < (filling 2 4).base.toNat + (filling 2 4).negWindow.toNat ∧
      (filling 2 4).nextSeq.toNat ≤ (filling 2 4).total.toNat ∧
      (chunkRead (filling 2 4).chunks (filling 2 4).nextSeq.toNat).length ≤ 992) ∧
    ((filling 1 4).base.toNat + (filling 1 4).negWindow.toNat ≤ (filling 1 4).nextSeq.toNat ∧
      (filling 5 6).base.toNat ≤ (filling 5 6).total.toNat ∧
      (filling 5 6).total.toNat < (filling 5 6).nextSeq.toNat) :=
  ⟨.inl rfl, by decide⟩

/-- X2, X3, X4, X6. -/
theorem witness_CumulativeAck :
    enginesTurn (queued waiting [0, 0, 0, 2, 0, 9, 0, 0]) ∧ waiting.lifecycle = .established ∧ waiting.phase = .wait ∧
    codecDecode [0, 0, 0, 2, 0, 9, 0, 0] = some ⟨0, 2, 9, 0, []⟩ ∧ (9 : U16).getLsbD 3 = true ∧
    (waiting.base.toNat ≤ (2 : U16).toNat ∧ (4 : U16).toNat < waiting.nextSeq.toNat) ∧
    (1 : U16).toNat < waiting.base.toNat ∧ waiting.nextSeq.toNat ≤ (5 : U16).toNat :=
  ⟨.inl rfl, by decide⟩

/-- W1, W2, W3. -/
theorem witness_GoBackNRound :
    (waiting.phase = .wait ∧ waiting.timerArmed = true) ∧
    (enginesTurn resending ∧ resending.phase = .retx ∧ resending.rtx.toNat < resending.nextSeq.toNat ∧
      (chunkRead resending.chunks resending.rtx.toNat).length ≤ 992) ∧
    (enginesTurn { resending with rtx := 5 } ∧ resending.nextSeq.toNat ≤ (5 : U17).toNat) :=
  ⟨by decide, ⟨.inl rfl, by decide⟩, .inl rfl, by decide⟩

set_option maxRecDepth 10000 in
/-- W8, and the same chunk in RETX. -/
theorem witness_OverlongChunkIsFatal :
    let m : ChunkMem := [(1, [0x41]), (2, List.replicate 993 0x42)]
    (enginesTurn { filling 1 2 with chunks := m } ∧ (filling 1 2).phase = .fill ∧
      (filling 1 2).base.toNat ≤ (filling 1 2).total.toNat ∧
      (filling 1 2).nextSeq.toNat < (filling 1 2).base.toNat + (filling 1 2).negWindow.toNat ∧
      (filling 1 2).nextSeq.toNat ≤ (filling 1 2).total.toNat ∧
      992 < (chunkRead m (filling 1 2).nextSeq.toNat).length) ∧
    (resending.phase = .retx ∧ resending.rtx.toNat < resending.nextSeq.toNat ∧
      992 < (chunkRead m resending.rtx.toNat).length) :=
  ⟨⟨.inl rfl, by decide⟩, by decide⟩

theorem witness_RetransmitsWholeWindow :
    resending.phase = .retx ∧ resending.moves = [] ∧ resending.rtx.toNat ≤ resending.nextSeq.toNat ∧
    resending.nextSeq.toNat ≤ 65536 ∧
    ∀ k, resending.rtx.toNat ≤ k → k < resending.nextSeq.toNat → (chunkRead resending.chunks k).length ≤ 992 :=
  ⟨rfl, rfl, by decide, by decide, fun k _ _ => client_chunks_fit k⟩

/-- F3's state: one more frame fits. -/
theorem witness_FillsWholeWindow :
    (filling 2 4).Inv ∧ (filling 2 4).phase = .fill ∧ (filling 2 4).moves = [] ∧
    (filling 2 4).base.toNat ≤ (filling 2 4).total.toNat ∧
    1 = min ((filling 2 4).base.toNat + (filling 2 4).negWindow.toNat) ((filling 2 4).total.toNat + 1) -
      (filling 2 4).nextSeq.toNat ∧
    ∀ k, (filling 2 4).nextSeq.toNat ≤ k → k < (filling 2 4).nextSeq.toNat + 1 →
      (chunkRead (filling 2 4).chunks k).length ≤ 992 :=
  ⟨witness_inv_filling, rfl, rfl, by decide, by decide, fun k _ _ => client_chunks_fit k⟩

theorem witness_FirstTransmissionsInOrder :
    (∃ t, exec (.sendAll 5) client = .next t ∧ t.phase = .fill ∧ client.phase = .none) ∧
    (∃ t, resendingSent.Inv ∧ sending resendingSent.phase = true ∧ 0 ≤ resendingSent.out.length ∧
      (txSeqs (resendingSent.out.drop 0)).eraseDups = List.range' 1 (resendingSent.nextSeq.toNat - 1) ∧
      step resendingSent = .next t ∧ sending t.phase = true) ∧
    (∃ t, lastFill.Inv ∧ sending lastFill.phase = true ∧
      (txSeqs (lastFill.out.drop 0)).eraseDups = List.range' 1 (lastFill.nextSeq.toNat - 1) ∧
      step lastFill = .next t ∧ t.phase = .none ∧ t.lifecycle = .established) :=
  ⟨⟨_, rfl, rfl, rfl⟩, ⟨_, witness_inv_resendingSent, rfl, by decide, by decide, rfl, by decide⟩,
    _, witness_inv_lastFill, rfl, by decide, rfl, by decide, by decide⟩

theorem witness_SenderByteCountNeverWraps :
    resendingSent.Inv ∧ sending resendingSent.phase = true ∧ ∀ k, (chunkRead resendingSent.chunks k).length ≤ 992 :=
  ⟨witness_inv_resendingSent, rfl, client_chunks_fit⟩

theorem witness_FinStopsReceiver :
    enginesTurn (queued (receiving 4) [0, 4, 0, 0, 0, 0x0B, 0, 3]) ∧ (receiving 4).lifecycle = .established ∧
    (receiving 4).phase = .recv ∧ codecDecode [0, 4, 0, 0, 0, 0x0B, 0, 3] = some ⟨4, 0, 0x0B, 3, []⟩ ∧
    (0x0B : U16).getLsbD 0 = true :=
  ⟨.inl rfl, by decide⟩

/-- Q4, Q10 and Q3 (sequences 1 and 3 beside EXPECTED 2). -/
theorem witness_DataAtReceiver :
    ((receiving 2).lifecycle = .established ∧ (receiving 2).phase = .recv) ∧
    (({ receiving 2 with dropArmed := true, dropSeq := 2 } : State).dropArmed = true ∧
      (2 : U16) = ({ receiving 2 with dropArmed := true, dropSeq := 2 } : State).dropSeq) ∧
    ((receiving 65535).dropArmed = false ∧ (65535 : U16).toNat = (receiving 65535).expected.toNat) ∧
    (({ receiving 2 with dropArmed := true, dropSeq := 2 } : State).dropSeq ≠ 3 ∧
      (1 : U16).toNat ≠ (receiving 2).expected.toNat ∧ (3 : U16).toNat ≠ (receiving 2).expected.toNat) := by decide

/-- Q7's flags: ACK set, FIN clear. -/
theorem witness_ReceiverTestsInOrder :
    enginesTurn (queued (receiving 1) [0, 1, 0, 0, 0, 8, 0, 0]) ∧ (receiving 1).lifecycle = .established ∧
    (receiving 1).phase = .recv ∧ codecDecode [0, 1, 0, 0, 0, 8, 0, 0] = some ⟨1, 0, 8, 0, []⟩ ∧
    (8 : U16).getLsbD 0 = false ∧ (receiving 1).dropArmed = false ∧ (1 : U16).toNat = (receiving 1).expected.toNat ∧
    (2 : U16).toNat ≠ (receiving 1).expected.toNat ∧
    ({ receiving 1 with dropArmed := true, dropSeq := 1 } : State).dropSeq = 1 :=
  ⟨.inl rfl, by decide⟩

/-- The stream of property T4, up to its FIN, from two sources. -/
def streamT4 : List (Addr × Frame) := [2, 1, 1, 3, 2, 2, 3].map fun k =>
  (7 + (k.toNat % 2) * 2, ⟨k, 0, 0, 3, [0x40 + k.setWidth 8]⟩)

/-- The receiver that finds the stream of T4 in its queue. -/
def receivingT4 : State := { receiving 1 with rxQueue := streamT4.map fun x => ⟨x.1, x.2.bytes⟩ }

theorem witness_ReceiverDeliversInOrderSubsequence :
    receivingT4.lifecycle = .established ∧ receivingT4.phase = .recv ∧ receivingT4.moves = [] ∧
    receivingT4.dropArmed = false ∧ receivingT4.expected.toNat ≤ 65536 ∧
    (∀ x ∈ streamT4, x.2.flags.getLsbD 0 = false) ∧
    receivingT4.rxQueue = streamT4.map (fun x => ⟨x.1, x.2.bytes⟩) ++ [] ∧
    (inOrder 1 (streamT4.map Prod.snd)).map Frame.payload = [[0x41], [0x42], [0x43]] := by
  decide

theorem witness_SinkMatchesExpected :
    (∃ t, exec .recvAll server = .next t ∧ t.phase = .recv ∧ server.phase = .none) ∧
    (receivedTwo.Inv ∧ receivedTwo.phase = .recv ∧ 0 ≤ receivedTwo.out.length ∧
      (sinkChunks (receivedTwo.out.drop 0)).length = receivedTwo.expected.toNat - 1 ∧
      receivedTwo.bytes = BitVec.ofNat 32 ((sinkChunks (receivedTwo.out.drop 0)).map List.length).sum ∧
      (∃ t, step receivedTwo = .next t) ∧ ¬ resetsNext receivedTwo) :=
  ⟨⟨_, rfl, rfl, rfl⟩, witness_inv_receivedTwo, rfl, by decide, by decide, by decide, ⟨_, rfl⟩, not_reset rfl⟩

/-- L11, W7, Q11, and seven bytes (E8). -/
theorem witness_ShortDatagramIsFatal :
    enginesTurn (queued waiting [0, 0, 0, 0, 0, 2, 0]) ∧ waitOf waiting.lifecycle waiting.phase ≠ none ∧
    waitOf (receiving 2).lifecycle (receiving 2).phase ≠ none ∧ waitOf synSent.lifecycle synSent.phase ≠ none ∧
    (queued waiting [0, 0, 0, 0, 0, 2, 0]).rxQueue = [⟨9, [0, 0, 0, 0, 0, 2, 0]⟩] ∧
    [(0 : Byte), 0, 0, 0, 0, 2, 0].length < 8 :=
  ⟨.inl rfl, by decide⟩

/-- E2, E3, W9, Q12: one state for each clause, with the event at the head of the moves. -/
theorem witness_SocketFailureIsFatal :
    ({ client with moves := [.socketFail] } : State).moves = .socketFail :: [] ∧ client.phase = .none ∧
    (listening.phase = .listen ∧ synSent.phase = .hsWait ∧ closing.phase = .finWait) ∧
    ((filling 1 1).phase = .fill ∧ waiting.phase = .wait ∧ resending.phase = .retx) ∧ (receiving 1).phase = .recv := by
  decide

theorem witness_HandshakeTimeoutIsFatal :
    ({ synSent with moves := [.expire] } : State).moves = .expire :: [] ∧ synSent.timerArmed = true ∧
    synSent.lifecycle = .synSent ∧ synSent.phase = .hsWait := by decide

theorem witness_TeardownTimeoutCloses :
    ({ closing with moves := [.expire] } : State).moves = .expire :: [] ∧ closing.timerArmed = true ∧
    closing.lifecycle = .finSent ∧ closing.phase = .finWait := by decide

/-- E1, with a datagram of each outcome, in each of the three waits. -/
theorem witness_FrameAndExpiryBothPossible :
    (synSent.lifecycle = .synSent ∧ synSent.phase = .hsWait ∧ synSent.timerArmed = true) ∧
    (waiting.lifecycle = .established ∧ waiting.phase = .wait ∧ waiting.timerArmed = true) ∧
    (closing.lifecycle = .finSent ∧ closing.phase = .finWait ∧ closing.timerArmed = true) ∧
    (queued synSent [0, 0, 0, 1, 0, 0x0A, 0, 0x0F]).rxQueue = [⟨9, [0, 0, 0, 1, 0, 0x0A, 0, 0x0F]⟩] ∧
    codecDecode [0, 0, 0, 1, 0, 0x0A, 0, 0x0F] = some ⟨0, 1, 0x0A, 15, []⟩ ∧ (0x0A : U16).getLsbD 1 = true ∧
    (0x0A : U16).getLsbD 3 = true ∧ codecDecode [0, 0, 0, 0, 0, 2, 0] = none := by decide

/-- A queue of depth 1, empty and full, and the unbounded queue. -/
theorem witness_ArrivalQueuesOrLoses :
    (∀ n, idle.params.rxqDepth = some n → idle.rxQueue.length < n) ∧
    (∀ n, (some 1 : Option Nat) = some n → ([] : List Datagram).length < n) ∧
    (({ idle with params := { params15 with rxqDepth := some 1 } } : State).params.rxqDepth = some 1 ∧
      1 ≤ (queued idle [1]).rxQueue.length) :=
  ⟨(by intro n h; cases h), (by intro n h; cases h; decide), by decide⟩

/-- E4, W10, and FIN_RCVD. -/
theorem witness_FramesStayPendingOutsideWaits :
    (isCommand (.data ⟨9, 1, 0, 3, []⟩) = false ∧ waitOf client.lifecycle client.phase = none) ∧
    (enginesTurn (queued resending [0, 0, 0, 2, 0, 8, 0, 0]) ∧ waitOf resending.lifecycle resending.phase = none ∧
      ∃ t, step (queued resending [0, 0, 0, 2, 0, 8, 0, 0]) = .next t) ∧
    waitOf finRcvd.lifecycle finRcvd.phase = none :=
  ⟨by decide, ⟨.inl rfl, by decide, _, rfl⟩, by decide⟩

theorem witness_SeamWritesOnlyWhenIdle :
    ({ idle with moves := [.seam 2 true] } : State).moves = .seam 2 true :: [] ∧
    (idle.lifecycle = .idle ∧ idle.phase = .none) ∧ listening.phase ≠ .none ∧ client.lifecycle ≠ .idle := by decide

theorem witness_ResetRestoresStatedValues :
    ({ waiting with moves := [.reset] } : State).moves = .reset :: [] := rfl

theorem witness_StepKeepsInvariant : resendingSent.Inv ∧ ∃ t, step resendingSent = .next t :=
  ⟨witness_inv_resendingSent, _, rfl⟩

theorem witness_StateMovesOnlyByTable :
    (∃ t, step (queued synSent [0, 0, 0, 1, 0, 0x0A, 0, 0x0F]) = .next t ∧ t.lifecycle = .established) ∧
    (¬ resetsNext (queued synSent [0, 0, 0, 1, 0, 0x0A, 0, 0x0F])) ∧
    (∃ t, step { closed with moves := [.reset] } = .next t) ∧ resetsNext { closed with moves := [.reset] } :=
  ⟨⟨_, rfl, by decide⟩, not_reset rfl, ⟨_, rfl⟩, [], rfl⟩

theorem witness_ClosedIsTerminal :
    closed.Inv ∧ sessionOver closed ∧ ¬ resetsNext closed ∧ ∃ t, step closed = .next t :=
  ⟨witness_inv_closed, ⟨rfl, rfl⟩, not_reset rfl, _, rfl⟩

theorem witness_RoleFixedForSession :
    ∃ t, step { idle with moves := [.command 4 lines] } = .next t ∧ t.role ≠ .none ∧
      ¬ resetsNext { idle with moves := [.command 4 lines] } :=
  ⟨_, rfl, by decide, fun ⟨_, h⟩ => by cases h⟩

theorem witness_OneFrameOneChunkPerStep :
    ∃ t, step (queued (receiving 1) [0, 1, 0, 0, 0, 0, 0, 3, 0x41]) = .next t ∧
      ¬ resetsNext (queued (receiving 1) [0, 1, 0, 0, 0, 0, 0, 3, 0x41]) ∧ (txHistory t.out).length = 1 :=
  ⟨_, rfl, not_reset rfl, by decide⟩

theorem witness_EmittedFramesAreCanonical :
    resendingSent.Inv ∧ ∃ t, step resendingSent = .next t ∧ (txHistory t.out).length = 5 :=
  ⟨witness_inv_resendingSent, _, rfl, by decide⟩

theorem witness_OutputsAreNeverReadBack : ∃ t, step lastFill = .next t := ⟨_, rfl⟩

/-- A frame of kind OTHER (SYN with FIN), and seven bytes. -/
theorem witness_SourceAddressNotExamined :
    enginesTurn waiting ∧ waitOf waiting.lifecycle waiting.phase ≠ some .serverListen ∧
    waitOf waiting.lifecycle waiting.phase ≠ some .serverThird ∧ waitOf waiting.lifecycle waiting.phase ≠ none ∧
    8 ≤ [(0 : Byte), 0, 0, 0, 0, 3, 0, 0].length ∧ [(0 : Byte), 0, 0, 0, 0, 3, 0].length < 8 :=
  ⟨.inl rfl, by decide⟩

/-- SYN-ACK, and the same frame with every reserved bit set, which is of kind OTHER. -/
theorem witness_ReservedFlagBitsIgnored :
    enginesTurn synSent ∧ waitOf synSent.lifecycle synSent.phase ≠ none ∧
    (0xFFFE : U16) &&& 0x000B = (0x000A : U16) &&& 0x000B ∧
    codecDecode [0, 0, 0, 1, 0, 0x0A, 0, 0x0F] = some ⟨0, 1, 0x000A, 15, []⟩ ∧
    codecDecode [0, 0, 0, 1, 0xFF, 0xFE, 0, 0x0F] = some ⟨0, 1, 0xFFFE, 15, []⟩ :=
  ⟨.inl rfl, by decide⟩

/-- The edges of the chunk numbers, a phase of SEND_ALL and one outside it; `cutData` of 65536 · 992 bytes is over the
bound (DataCutAtFixedBoundaries), and a list of that length exists. -/
theorem witness_ChunkReadAfterStore :
    Memory.wf client.chunks ∧ ({ client with moves := [.storeChunk 65535 [1]] } : State).moves = .storeChunk 65535 [1] :: [] ∧
    ({ client with moves := [.fillChunks [1]] } : State).moves = .fillChunks [1] :: [] ∧
    (waiting.phase = .wait ∧ resending.phase = .retx ∧ (filling 1 1).phase = .fill) ∧
    (client.phase ≠ .fill ∧ client.phase ≠ .wait ∧ client.phase ≠ .retx) ∧ 65535 < 65536 ∧ 1 ≤ 65535 ∧
    (cutData [1]).length ≤ 65535 := by decide

/-- Data of more than 65535 chunks, for the clause of ChunkReadAfterStore about it. -/
theorem witness_ChunkReadAfterStore_too_long : ∃ data : Bytes, 65535 < (cutData data).length := by
  have h : ∀ (n fuel : Nat) (data : Bytes), data.length ≤ fuel → 992 * n < data.length → n < (cutAt992 fuel data).length := by
    intro n
    induction n with
    | zero => intro fuel data hf hn; cases fuel <;> cases data <;> simp_all [cutAt992]
    | succ n ih =>
      intro fuel data hf hn
      cases fuel with
      | zero => omega
      | succ fuel =>
        cases data with
        | nil => simp at hn
        | cons b rest =>
          have := ih fuel ((b :: rest).drop 992) (by simp at hf ⊢; omega) (by simp at hn ⊢; omega)
          simp only [cutAt992, List.length_cons]
          exact Nat.succ_lt_succ this
  exact ⟨List.replicate (992 * 65535 + 1) 0, h _ _ _ (Nat.le_refl _) (by rw [List.length_replicate]; omega)⟩

set_option maxRecDepth 100000 in
theorem witness_DataCutAtFixedBoundaries :
    0 < (cutData [1]).length ∧ (cutData (List.replicate 993 7)).map List.length = [992, 1] := by decide

end Sys2Proof.Tests
end

section
/-! PROOFS. Every step keeps the invariant of a Session. Its parts are carried through the cases of `step_outcome` one by
one: the control registers, the RX queue, chunk memory, the window registers, the sender's counters, EXPECTED. -/

namespace Sys2Proof.Machine

/-! ## The control registers -/

section
variable {l : Lifecycle} {r : Role}

@[simp] theorem legal_none : legal l .none r = true ↔
    (l = .idle ∧ r = .none) ∨ ((l = .established ∨ l = .closed) ∧ (r = .client ∨ r = .server)) := by
  cases l <;> cases r <;> simp [legal]

@[simp] theorem legal_listen : legal l .listen r = true ↔ l = .idle ∧ r = .server := by
  cases l <;> cases r <;> simp [legal]

@[simp] theorem legal_hsWait : legal l .hsWait r = true ↔
    (l = .synSent ∧ r = .client) ∨ (l = .synRcvd ∧ r = .server) := by
  cases l <;> cases r <;> simp [legal]

@[simp] theorem legal_fill : legal l .fill r = true ↔ l = .established ∧ r = .client := by
  cases l <;> cases r <;> simp [legal]

@[simp] theorem legal_wait : legal l .wait r = true ↔ l = .established ∧ r = .client := by
  cases l <;> cases r <;> simp [legal]

@[simp] theorem legal_retx : legal l .retx r = true ↔ l = .established ∧ r = .client := by
  cases l <;> cases r <;> simp [legal]

@[simp] theorem legal_recv : legal l .recv r = true ↔ (l = .established ∨ l = .finRcvd) ∧ r = .server := by
  cases l <;> cases r <;> simp [legal]

@[simp] theorem legal_finWait : legal l .finWait r = true ↔ l = .finSent ∧ r = .client := by
  cases l <;> cases r <;> simp [legal]

/-- A Session with a command in progress has a role, so it may be closed. -/
theorem legal_closed {p : Phase} (h : legal l p r = true) (hp : p ≠ .none) : legal .closed .none r = true := by
  cases r with
  | none => cases p <;> simp at h hp
  | client => rfl
  | server => rfl

@[simp] theorem timedWait_none : timedWait l .none = false := by cases l <;> rfl

@[simp] theorem timedWait_listen : timedWait l .listen = false := by cases l <;> rfl

@[simp] theorem timedWait_hsWait : timedWait l .hsWait = decide (l = .synSent) := by cases l <;> rfl

@[simp] theorem timedWait_fill : timedWait l .fill = false := by cases l <;> rfl

@[simp] theorem timedWait_wait : timedWait l .wait = true := by cases l <;> rfl

@[simp] theorem timedWait_retx : timedWait l .retx = false := by cases l <;> rfl

@[simp] theorem timedWait_recv : timedWait l .recv = false := by cases l <;> rfl

@[simp] theorem timedWait_finWait : timedWait l .finWait = true := by cases l <;> rfl

/-- Outside the three bounded waits of spec/10_state.md R40 no legal combination arms the timer. -/
theorem timedWait_eq_false {p : Phase} (h : legal l p r = true) (h1 : ¬ (l = .synSent ∧ p = .hsWait))
    (h2 : p ≠ .wait) (h3 : ¬ (l = .finSent ∧ p = .finWait)) : timedWait l p = false := by
  cases p with
  | hsWait => simpa using h1
  | wait => exact absurd rfl h2
  | finWait => exact absurd ⟨(legal_finWait.1 h).1, rfl⟩ h3
  | none | listen | fill | retx | recv => simp

end

/-- The part of the invariant about STATE, PHASE, ROLE, TIMER_ARMED and ERR. -/
structure Control (l : Lifecycle) (p : Phase) (r : Role) (armed : Bool) (e : ErrCode) : Prop where
  combination : legal l p r = true
  timer : armed = timedWait l p
  err : e = .none ∨ (e.fatal = true ∧ l = .closed)

namespace Control
variable {l l' : Lifecycle} {p p' : Phase} {r r' : Role} {a a' : Bool} {e e' : ErrCode}

/-- The fatal action in a Session with a command in progress (spec/60_exceptions.md R212). -/
theorem fatal (h : Control l p r a e) (hp : p ≠ .none) (he : e'.fatal = true) : Control .closed .none r false e' :=
  ⟨legal_closed h.combination hp, rfl, .inr ⟨he, rfl⟩⟩

/-- A Session that is not closed has no error, so ERR is right wherever it moves to. -/
theorem move (h : Control l p r a e) (hl : l ≠ .closed) (hc : legal l' p' r' = true) (ha : a' = timedWait l' p') :
    Control l' p' r' a' e :=
  ⟨hc, ha, .inl (h.err.resolve_right fun he => hl he.2)⟩

end Control

/-- The control registers of a state meet their part of the invariant. -/
abbrev State.ControlInv (s : State) : Prop := Control s.lifecycle s.phase s.role s.timerArmed s.err

theorem step_keeps_control {s t : State} (hs : s.ControlInv) (h : step s = .next t) : t.ControlInv := by
  have hc := hs.combination
  have ha := hs.timer
  cases step_outcome h <;> rename_i ht <;> subst ht
  -- the fatal action
  case handshakeError hw =>
    exact hs.fatal (by rcases hw with ⟨-, hp, -⟩ | ⟨-, hp, -⟩ | ⟨-, hp, -⟩ <;> simp [hp]) rfl
  case shortHeader w hw => exact hs.fatal (fun hp => by simp [hp] at hw) rfl
  case overlong k hp _ => exact hs.fatal (by rcases hp with ⟨hp, -⟩ | ⟨hp, -⟩ <;> simp [hp]) rfl
  case handshakeTimeout hp => exact hs.fatal (by simp [hp]) rfl
  case socketError hp => exact hs.fatal hp rfl
  -- the handshake
  case openConn hp hl hr => exact hs.move (by simp [hl]) rfl rfl
  case accept hp hl hr => exact hs.move (by simp [hl]) (by simp [hl]) (by simp [ha, hl, hp])
  case synAnswered hl hp =>
    exact hs.move (by simp [hl]) (by simpa [hl, hp] using hc) (by simp [ha, hl, hp])
  case clientEstablished hl hp =>
    have hr : s.role = .client := by simpa [hl, hp] using hc
    exact hs.move (by simp [hl]) (by simp [hr]) rfl
  case serverEstablished hl hp =>
    have hr : s.role = .server := by simpa [hl, hp] using hc
    exact hs.move (by simp [hl]) (by simp [hr]) (by simp [ha, hl, hp])
  -- the sender
  case sendAll hp hl hr _ _ => exact hs.move (by simp [hl]) (by simp [hl, hr]) (by simp [ha, hl, hp])
  case ackMoves hl hp _ _ => exact hs.move (by simp [hl]) (by simpa [hp] using hc) (by simp)
  case ackStale hl hp _ => exact hs.move (by simp [hl]) (by simpa [hp] using hc) (by simp)
  case windowFull hp _ _ =>
    rw [hp, legal_fill] at hc
    exact hs.move (by simp [hc]) (by simpa [enterWait]) (by simp [enterWait])
  case goBackN hp =>
    rw [hp, legal_wait] at hc
    exact hs.move (by simp [hc]) (by simpa [goBackN]) (by simp [goBackN, hc])
  case resendDone hp _ =>
    rw [hp, legal_retx] at hc
    exact hs.move (by simp [hc]) (by simpa [enterWait]) (by simp [enterWait])
  case sendDone hp _ =>
    rw [hp, legal_fill] at hc
    exact hs.move (by simp [hc]) (by simp [hc, sendDone]) (by simp [sendDone, ha, hp, hc])
  -- the receiver
  case recvAll hp hl hr => exact hs.move (by simp [hl]) (by simp [hl, hr]) (by simp [ha, hl, hp])
  case finReceived hl hp =>
    have hr : s.role = .server := by simpa [hl, hp] using hc
    exact hs.move (by simp [hl]) (by simp [recvFin, hp, hr]) (by simp [recvFin, ha, hp])
  case finackSent hl hp =>
    have hr : s.role = .server := by simpa [hl, hp] using hc
    exact hs.move (by simp [hl]) (by simp [sendFinack, hr]) (by simp [sendFinack, ha, hp])
  -- the close
  case close hp hl hr => exact hs.move (by simp [hl]) (by simp [hr]) rfl
  case clientClosed hl hp =>
    exact hs.move (by simp [hl]) (legal_closed hc (by simp [hp])) rfl
  case teardownTimeout hl hp =>
    exact hs.move (by simp [hl]) (legal_closed hc (by simp [hp])) rfl
  -- no armed timer is stray
  case strayExpiry hm harmed h1 h2 h3 => simp [ha, timedWait_eq_false hc h1 h2 h3] at harmed
  case reset => exact ⟨rfl, rfl, .inl rfl⟩
  all_goals exact hs

/-! ## The RX queue -/

theorem queueFull_eq_false {p : Config.Params} {q : List Datagram} :
    queueFull p q = false ↔ ∀ n, p.rxqDepth = some n → q.length < n := by
  unfold queueFull; cases p.rxqDepth <;> simp

/-- What a step does with the RX queue: it keeps the queue or takes entries from its head, or a datagram cut to RX_MAX
joins a queue that has room (spec/20_memory.md R67, R70). -/
theorem step_rxQueue {s t : State} (h : step s = .next t) :
    t.rxQueue <:+ s.rxQueue ∨
      queueFull s.params s.rxQueue = false ∧
        ∃ (src : Addr) (b : Bytes), t.rxQueue = s.rxQueue ++ [⟨src, b.take s.params.rxMax⟩] := by
  cases step_outcome h <;> rename_i ht <;> subst ht
  case arrival src b _ =>
    cases hf : queueFull s.params s.rxQueue with
    | true => exact .inl (by simp [hf])
    | false => exact .inr ⟨rfl, src, b, by simp [hf]⟩
  case reset => exact .inl List.nil_suffix
  case clientEstablished | handshakeError | synAnswered | serverEstablished | ackMoves | ackStale | ignored |
      clientClosed | finReceived | dropped | delivered | outOfOrder | shortHeader =>
    exact .inl (List.drop_suffix 1 _)
  all_goals exact .inl (List.suffix_refl _)

theorem step_keeps_queued_len {s t : State} (hs : ∀ d ∈ s.rxQueue, d.bytes.length ≤ s.params.rxMax)
    (h : step s = .next t) : ∀ d ∈ t.rxQueue, d.bytes.length ≤ t.params.rxMax := by
  rw [step_params h]
  intro d hd
  rcases step_rxQueue h with hq | ⟨-, src, b, hq⟩
  · exact hs d (hq.subset hd)
  · rw [hq, List.mem_append, List.mem_singleton] at hd
    rcases hd with hd | rfl
    · exact hs d hd
    · exact List.length_take_le _ _

theorem step_keeps_queue_len {s t : State} (hs : ∀ n, s.params.rxqDepth = some n → s.rxQueue.length ≤ n)
    (h : step s = .next t) : ∀ n, t.params.rxqDepth = some n → t.rxQueue.length ≤ n := by
  rw [step_params h]
  intro n hn
  rcases step_rxQueue h with hq | ⟨hf, src, b, hq⟩
  · exact hq.length_le.trans (hs n hn)
  · rw [hq, List.length_append]
    exact queueFull_eq_false.1 hf n hn

/-! ## Chunk memory -/

theorem step_keeps_chunks {s t : State} (hs : Memory.wf s.chunks) (h : step s = .next t) : Memory.wf t.chunks := by
  cases step_outcome h <;> rename_i ht <;> subst ht
  case chunkStored k b _ _ h1 h2 => exact chunkWrite_wf hs h1 h2
  case chunksFilled b _ _ h2 => exact fill_wf h2
  all_goals exact hs

/-! ## The window registers -/

/-- The part of the invariant about CFG_WINDOW, PEER_WINDOW and NEG_WINDOW. -/
structure Windows (l : Lifecycle) (r : Role) (cfg peer neg : U16) : Prop where
  unused : r ≠ .client → peer = 0 ∧ neg = 0
  negotiated : r = .client → l = .established ∨ l = .finSent → neg.toNat = min cfg.toNat peer.toNat

/-- Where STATE is neither ESTABLISHED nor FIN_SENT, the windows are only asked to be untouched by a server. -/
theorem Windows.leave {l l' : Lifecycle} {r : Role} {cfg peer neg : U16} (h : Windows l r cfg peer neg)
    (h1 : l' ≠ .established) (h2 : l' ≠ .finSent) : Windows l' r cfg peer neg :=
  ⟨h.unused, fun _ hl => absurd hl (by simp [h1, h2])⟩

/-- The window registers of a state meet their part of the invariant. -/
abbrev State.WindowsInv (s : State) : Prop := Windows s.lifecycle s.role s.cfgWindow s.peerWindow s.negWindow

theorem step_keeps_windows {s t : State} (hc : legal s.lifecycle s.phase s.role = true) (hs : s.WindowsInv)
    (h : step s = .next t) : t.WindowsInv := by
  cases step_outcome h <;> rename_i ht <;> subst ht
  case openConn => exact ⟨fun hr => absurd rfl hr, fun _ hl => by simp at hl⟩
  case accept hr => exact ⟨fun _ => hs.unused (by simp [hr]), nofun⟩
  case clientEstablished hl hp =>
    have hr : s.role = .client := by simpa [hl, hp] using hc
    exact ⟨fun hr' => absurd hr hr', fun _ _ => min16_toNat _ _⟩
  case serverEstablished hl hp =>
    have hr : s.role = .server := by simpa [hl, hp] using hc
    exact ⟨hs.unused, fun hr' => by simp [hr] at hr'⟩
  case close hl hr => exact ⟨hs.unused, fun _ _ => hs.negotiated hr (.inl hl)⟩
  case reset => exact ⟨fun _ => ⟨rfl, rfl⟩, nofun⟩
  case handshakeError | shortHeader | overlong | handshakeTimeout | socketError | synAnswered | clientClosed |
      finReceived | finackSent | teardownTimeout =>
    exact hs.leave nofun nofun
  all_goals exact hs

/-! ## The sender -/

/-- The bytes of the chunks up to `b` are those below `a` and those from `a` to `b` (spec/42_sender_arq.md R175). -/
theorem chunkBytes_append (m : ChunkMem) {a b : Nat} (h1 : 1 ≤ a) (h2 : a ≤ b) :
    chunkBytes m 1 (a - 1) + chunkBytes m a b = chunkBytes m 1 b := by
  have hr : List.range' 1 b = List.range' 1 (a - 1) ++ List.range' a (b + 1 - a) := by
    rw [show List.range' a (b + 1 - a) = List.range' (1 + (a - 1)) (b + 1 - a) by congr 1; omega,
      List.range'_append_1]
    congr 1; omega
  simp only [chunkBytes, Nat.add_sub_cancel, hr, List.map_append, List.sum_append]

/-- The counter values of a transfer, at most 65536, are far from the wrap of 17 bits. -/
theorem u17_succ_toNat {c : U17} (h : c.toNat ≤ 65536) : (c + 1).toNat = c.toNat + 1 := by
  simp; omega

theorem zext17_succ_toNat (a : U16) : (zext17 a + 1).toNat = a.toNat + 1 := by
  rw [u17_succ_toNat (by simp; omega), zext17_toNat]

/-- The byte count follows BASE over the acknowledged chunks (spec/42_sender_arq.md R175). -/
theorem SenderInv.acked_bytes_add {s : State} (h : SenderInv s) {a : Nat} (ha : s.base.toNat ≤ a) :
    addBytes s.bytes (chunkBytes s.chunks s.base.toNat a) = BitVec.ofNat 32 (chunkBytes s.chunks 1 a) := by
  rw [addBytes, h.acked_bytes, ← BitVec.ofNat_add, chunkBytes_append _ h.base_pos ha]

/-- The wait is entered only with a frame outstanding (spec/42_sender_arq.md R173): the window is not empty, since a
transfer that has chunks was given a window of at least 1. -/
theorem SenderInv.base_lt_next {s : State} (h : SenderInv s) (h1 : s.base.toNat ≤ s.total.toNat)
    (h2 : s.base.toNat + s.negWindow.toNat ≤ s.nextSeq.toNat ∨ s.total.toNat < s.nextSeq.toNat) :
    s.base.toNat < s.nextSeq.toNat := by
  have hb := h.base_pos
  have hw := h.some_window
  omega

/-- NEXT is at most 65536 (spec/10_state.md R30, R31). -/
theorem SenderInv.next_le {s : State} (h : SenderInv s) : s.nextSeq.toNat ≤ 65536 :=
  h.next_le_total.trans (Nat.add_le_add_right h.total_le 1)

theorem step_keeps_sender {s t : State} (hs : sending s.phase = true → SenderInv s) (h : step s = .next t) :
    sending t.phase = true → SenderInv t := by
  cases step_outcome h <;> rename_i ht <;> subst ht
  case sendAll a _ _ _ _ htot hw =>
    have htot' : (BitVec.ofNat 17 a.total).toNat = a.total := by simp; omega
    exact fun _ =>
      { base_pos := Nat.le_refl 1
        base_le_next := Nat.le_refl 1
        next_le_total := Nat.le_add_left 1 _
        total_le := htot'.trans_le htot
        window := Nat.le_add_right 1 _
        some_window := hw.imp_right htot'.trans
        outstanding := nofun
        rtx_ge := nofun
        rtx_le := nofun
        acked_bytes := rfl }
  case ackMoves d q f _ _ _ _ hp h1 h2 =>
    have hs := hs (by simp [hp, sending])
    have hb := zext17_succ_toNat f.ack
    exact fun _ =>
      { hs with
        base_pos := hb.symm ▸ Nat.le_add_left 1 _
        base_le_next := hb.trans_le h2
        window := hs.window.trans (Nat.add_le_add_right (hb.symm ▸ Nat.le_succ_of_le h1) _)
        outstanding := nofun
        rtx_ge := nofun
        rtx_le := nofun
        acked_bytes := by
          show addBytes s.bytes _ = BitVec.ofNat 32 (chunkBytes s.chunks 1 ((zext17 f.ack + 1).toNat - 1))
          rw [hb]; exact hs.acked_bytes_add h1 }
  case ackStale hp _ =>
    have hs := hs (by simp [hp, sending])
    exact fun _ => { hs with outstanding := nofun, rtx_ge := nofun, rtx_le := nofun }
  case sentNew hp _ h2 h3 _ =>
    have hs := hs (by simp [hp, sending])
    have hn : (s.nextSeq + 1).toNat = s.nextSeq.toNat + 1 := u17_succ_toNat hs.next_le
    exact fun _ =>
      { hs with
        base_le_next := hn.symm ▸ Nat.le_succ_of_le hs.base_le_next
        next_le_total := hn.trans_le (Nat.succ_le_succ h3)
        window := hn.trans_le h2
        outstanding := by simp [hp]
        rtx_ge := by simp [hp]
        rtx_le := by simp [hp] }
  case windowFull hp h1 h2 =>
    have hs := hs (by simp [hp, sending])
    exact fun _ => { hs with outstanding := fun _ => hs.base_lt_next h1 h2, rtx_ge := nofun, rtx_le := nofun }
  case goBackN hp =>
    have hs := hs (by simp [hp, sending])
    exact fun _ =>
      { hs with
        outstanding := fun _ => hs.outstanding (.inl hp)
        rtx_ge := fun _ => Nat.le_refl _
        rtx_le := fun _ => hs.base_le_next }
  case resent hp h1 _ =>
    have hs := hs (by simp [hp, sending])
    have hr : (s.rtx + 1).toNat = s.rtx.toNat + 1 := u17_succ_toNat (h1.le.trans hs.next_le)
    exact fun _ =>
      { hs with
        rtx_ge := fun _ => hr.symm ▸ Nat.le_succ_of_le (hs.rtx_ge hp)
        rtx_le := fun _ => hr.trans_le h1 }
  case resendDone hp _ =>
    have hs := hs (by simp [hp, sending])
    exact fun _ => { hs with outstanding := fun _ => hs.outstanding (.inr hp), rtx_ge := nofun, rtx_le := nofun }
  case stays | refused | codec | ignored | arrival | strayExpiry | seamWritten | clockMoved =>
    exact fun hsend => { hs hsend with }
  -- SEND_ALL is not in progress in these steps
  case chunkStored hsend _ _ | chunksFilled hsend _ => exact fun hsend' => absurd hsend' (by simp [hsend])
  case finReceived hp | dropped hp | delivered hp _ | outOfOrder hp _ =>
    exact fun hsend => nomatch (congrArg sending hp).symm.trans hsend
  all_goals exact nofun

/-! ## The receiver -/

theorem step_keeps_receiver {s t : State} (hs : s.phase = .recv → 1 ≤ s.expected.toNat ∧ s.expected.toNat ≤ 65536)
    (h : step s = .next t) : t.phase = .recv → 1 ≤ t.expected.toNat ∧ t.expected.toNat ≤ 65536 := by
  cases step_outcome h <;> rename_i ht <;> subst ht
  case recvAll => exact fun _ => ⟨Nat.le_refl 1, by simp⟩
  case delivered d q f _ _ _ _ _ _ he =>
    -- EXPECTED equals a 16-bit sequence, so its successor is at most 65536
    have hseq := f.seq.isLt
    have hn : (s.expected + 1).toNat = s.expected.toNat + 1 := u17_succ_toNat (by omega)
    exact fun _ => ⟨hn.symm ▸ Nat.le_add_left 1 _, hn.trans_le (by omega)⟩
  case stays | refused | codec | ignored | dropped | outOfOrder | finReceived | sentNew | resent | arrival |
      strayExpiry | seamWritten | chunkStored | chunksFilled | clockMoved =>
    exact hs
  all_goals exact nofun

/-! ## The whole invariant -/

/-- Within the bounds of spec/00_scope.md R9, Addr has an element. -/
theorem isAddr_zero_of_wf {p : Config.Params} (h : p.wf = true) : p.isAddr 0 = true := by
  simp only [Config.Params.wf, Bool.and_eq_true] at h
  exact h.2

/-- Settles O50: each part of the invariant is kept by every case of `step_outcome`. -/
theorem stepKeepsInvariant : Obligations.StepKeepsInvariant := by
  unfold Obligations.StepKeepsInvariant
  intro s t hs h
  have hcontrol := step_keeps_control ⟨hs.combination, hs.timer, hs.err⟩ h
  have hwindows := step_keeps_windows hs.combination ⟨hs.no_window, hs.window⟩ h
  exact
    { params := by rw [step_params h]; exact hs.params
      addresses := step_isAddr h (isAddr_zero_of_wf hs.params) hs.addresses
      combination := hcontrol.combination
      timer := hcontrol.timer
      err := hcontrol.err
      chunks := step_keeps_chunks hs.chunks h
      queued_len := step_keeps_queued_len hs.queued_len h
      queue_len := step_keeps_queue_len hs.queue_len h
      no_window := hwindows.unused
      window := hwindows.negotiated
      sender := step_keeps_sender hs.sender h
      receiver := step_keeps_receiver hs.receiver h }

end Sys2Proof.Machine
end

section
/-! PROOFS. The outputs of spec/10_state.md R44: what one step appends to them, and that it never reads them back; and
what a step does with the RX queue. -/

namespace Sys2Proof.Machine

/-! ## What a step appends -/

/-- Outputs of one step: at most one chunk, one datagram, one trace event and one result, in this order. -/
def stepOutputs (chunk : Option Bytes) (frame : Option (Addr × Bytes)) (event : Option TraceEvent)
    (result : Option CmdResult) : List Output :=
  chunk.toList.map .sink ++ frame.toList.map (fun x => .tx x.1 x.2) ++ event.toList.map .trace ++
    result.toList.map .result

section
variable (c : Option Bytes) (f : Option (Addr × Bytes)) (e : Option TraceEvent) (r : Option CmdResult)

@[simp] theorem txHistory_stepOutputs : txHistory (stepOutputs c f e r) = f.toList := by
  cases c <;> cases f <;> cases e <;> cases r <;> rfl

@[simp] theorem sinkChunks_stepOutputs : sinkChunks (stepOutputs c f e r) = c.toList := by
  cases c <;> cases f <;> cases e <;> cases r <;> rfl

@[simp] theorem results_stepOutputs : results (stepOutputs c f e r) = r.toList := by
  cases c <;> cases f <;> cases e <;> cases r <;> rfl

end

/-- A step only appends to the outputs, and no more than `stepOutputs`. -/
theorem step_out {s t : State} (h : step s = .next t) :
    ∃ c f e r, t.out = s.out ++ stepOutputs c f e r := by
  cases step_outcome h <;> rename_i ht <;> subst ht
  case stays | accept | sendAll | recvAll | ignored | windowFull | resendDone | arrival | strayExpiry | reset |
      seamWritten | chunkStored | chunksFilled | clockMoved =>
    exact ⟨none, none, none, none, (List.append_nil _).symm⟩
  case refused | codec | serverEstablished | clientClosed | sendDone |
      handshakeError | shortHeader | overlong | handshakeTimeout | socketError =>
    exact ⟨none, none, none, some _, rfl⟩
  case openConn | close | synAnswered => exact ⟨none, some (_, _), none, none, rfl⟩
  case ackMoves | ackStale | finReceived | dropped | outOfOrder | goBackN => exact ⟨none, none, some _, none, rfl⟩
  case sentNew | resent => exact ⟨none, some (_, _), some _, none, List.append_assoc ..⟩
  case clientEstablished | finackSent => exact ⟨none, some (_, _), none, some _, List.append_assoc ..⟩
  case teardownTimeout => exact ⟨none, none, some _, some _, List.append_assoc ..⟩
  case delivered d q f _ _ _ _ _ _ _ =>
    exact ⟨some f.payload, some (s.peer, (ackDataFrame s.expected s.params.advWindow).bytes),
      some (.delivered f.seq f.payload.length), none, by simp [recvAccept, stepOutputs]⟩

/-- Every step but reset keeps the RX queue, takes its head, or adds one datagram at its tail. -/
theorem step_rxQueue_cases {s t : State} (h : step s = .next t) (hr : ¬ resetsNext s) :
    t.rxQueue = s.rxQueue ∨ t.rxQueue = s.rxQueue.tail ∨ ∃ d, t.rxQueue = s.rxQueue ++ [d] := by
  cases step_outcome h <;> rename_i ht <;> subst ht
  case arrival src b _ =>
    rw [deliver_rxQueue]
    split
    · exact .inl rfl
    · exact .inr (.inr ⟨_, rfl⟩)
  case reset hm => exact absurd (List.head?_eq_some_iff.1 hm) hr
  case clientEstablished | handshakeError | synAnswered | serverEstablished | ackMoves | ackStale | ignored |
      clientClosed | finReceived | dropped | delivered | outOfOrder | shortHeader =>
    exact .inr (.inl List.drop_one)
  all_goals exact .inl rfl

/-- Settles O54: the outputs by `step_out`, the RX queue by `step_rxQueue_cases`. -/
theorem oneFrameOneChunkPerStep : Obligations.OneFrameOneChunkPerStep := by
  unfold Obligations.OneFrameOneChunkPerStep
  intro s t h
  obtain ⟨c, f, e, r, hout⟩ := step_out h
  exact ⟨⟨_, hout, by simp [Option.length_toList_le], by simp [Option.length_toList_le],
    by simp [Option.length_toList_le]⟩, step_rxQueue_cases h⟩

/-! ## The outputs are never read back -/

/-- The state with the outputs `o` made before its own. -/
def State.prependOut (o : List Output) (s : State) : State := { s with out := o ++ s.out }

/-- An outcome whose state has the outputs `o` made before its own. -/
def prependOutcome (o : List Output) : Host.Outcome State Fault Refusal → Host.Outcome State Fault Refusal
  | .next s => .next (s.prependOut o)
  | .fault r => .fault r
  | .refused r => .refused r

section
variable (o : List Output) (s : State)

@[simp] theorem prependOut_lifecycle : (s.prependOut o).lifecycle = s.lifecycle := rfl
@[simp] theorem prependOut_phase : (s.prependOut o).phase = s.phase := rfl
@[simp] theorem prependOut_rxQueue : (s.prependOut o).rxQueue = s.rxQueue := rfl

theorem prependOut_nil_out : ({ s with out := [] } : State).prependOut o = { s with out := o } := by
  simp [State.prependOut]

theorem emit_prependOut (e : TraceEvent) : (s.prependOut o).emit e = (s.emit e).prependOut o := by
  simp [State.emit, State.prependOut]

theorem post_prependOut (r : CmdResult) : (s.prependOut o).post r = (s.post r).prependOut o := by
  simp [State.post, State.prependOut]

theorem refuse_prependOut : refuse (s.prependOut o) = (refuse s).prependOut o := post_prependOut o s _

theorem raiseFatal_prependOut (e : ErrCode) : raiseFatal e (s.prependOut o) = (raiseFatal e s).prependOut o := by
  cases h : s.phase <;> simp [raiseFatal, State.prependOut, failResult, State.post, State.goto, State.stats, timed, h]

/-- A choice that does not look at the outputs. -/
theorem ite_prependOut {c : Prop} [Decidable c] {a b a' b' : State} (ha : a' = a.prependOut o)
    (hb : b' = b.prependOut o) : ite c a' b' = (ite c a b).prependOut o := by
  rw [ha, hb, apply_ite (State.prependOut o)]

/-! ## The rules -/

theorem onSenderAck_prependOut : onSenderAck (s.prependOut o) = (onSenderAck s).prependOut o := by
  have hack : applyAck s.rxf.ack (s.timerDisarm.prependOut o) = (applyAck s.rxf.ack s.timerDisarm).prependOut o :=
    ite_prependOut o rfl rfl
  refine ite_prependOut o ?_ rfl
  exact congrArg (fun u : State => { u with phase := .fill })
    ((congrArg (State.emit _) hack).trans (emit_prependOut o _ _))

theorem onReceiver_prependOut : onReceiver (s.prependOut o) = (onReceiver s).prependOut o := by
  refine ite_prependOut o ?fin (ite_prependOut o ?drop (ite_prependOut o ?accept ?discard))
  case fin => exact congrArg (fun u : State => { u with lifecycle := .finRcvd }) (emit_prependOut o s _)
  case drop => exact congrArg (fun u : State => { u with dropArmed := false }) (emit_prependOut o s _)
  case accept => simp [recvAccept, State.sinkWrite, State.tx, State.emit, State.prependOut, State.rxfPlen]
  case discard => exact emit_prependOut o s _

theorem onFrame_prependOut (w : Wait) : onFrame w (s.prependOut o) = (onFrame w s).prependOut o := by
  cases w with
  | clientReply =>
    refine ite_prependOut o ?_ (raiseFatal_prependOut o s _)
    simp [State.prependOut, State.timerDisarm, State.tx, State.goto, State.post]
  | serverListen =>
    refine ite_prependOut o ?_ (raiseFatal_prependOut o s _)
    simp [State.prependOut, State.tx, State.goto]
  | serverThird =>
    refine ite_prependOut o ?_ (raiseFatal_prependOut o s _)
    simp [State.prependOut, State.goto, State.post]
  | senderAck => exact onSenderAck_prependOut o s
  | clientClose => exact ite_prependOut o (post_prependOut o (s.timerDisarm.goto .closed .none) _) rfl
  | receiver => exact onReceiver_prependOut o s

theorem receive_prependOut (f : Frame) (src : Addr) :
    receive f src (s.prependOut o) = (receive f src s).prependOut o := by
  cases hw : waitOf s.lifecycle s.phase with
  | none => rw [receive_pending hw, receive_pending (s := s.prependOut o) hw]
  | some w =>
    rw [receive_waiting hw, receive_waiting (s := s.prependOut o) hw]
    exact onFrame_prependOut o (s.takeFrame f src) w

theorem fillStep_prependOut : fillStep (s.prependOut o) = (fillStep s).prependOut o := by
  refine ite_prependOut o ?done (ite_prependOut o (ite_prependOut o (raiseFatal_prependOut o s _) ?sent) rfl)
  case done => exact post_prependOut o { s.stopClock with phase := .none } _
  case sent => simp [State.prependOut, State.tx, State.emit]

theorem retxStep_prependOut : retxStep (s.prependOut o) = (retxStep s).prependOut o := by
  refine ite_prependOut o (ite_prependOut o (raiseFatal_prependOut o s _) ?resent) rfl
  case resent => simp [State.prependOut, State.tx, State.emit]

theorem sendFinack_prependOut : sendFinack (s.prependOut o) = (sendFinack s).prependOut o := by
  simp [sendFinack, State.prependOut, State.tx, State.goto, State.stopClock, State.stats, State.post]

theorem internalStep_prependOut : internalStep (s.prependOut o) = (internalStep s).prependOut o := by
  simp only [internalStep, prependOut_lifecycle, prependOut_phase]
  split
  · exact fillStep_prependOut o s
  · exact retxStep_prependOut o s
  · exact sendFinack_prependOut o s
  · rfl

theorem timerExpiry_prependOut : timerExpiry (s.prependOut o) = (timerExpiry s).prependOut o := by
  refine ite_prependOut o ?_ rfl
  simp only [prependOut_lifecycle, prependOut_phase]
  split
  · exact raiseFatal_prependOut o s _
  · exact congrArg (fun u : State => { u with rtx := s.base, phase := .retx }) (emit_prependOut o s.timerDisarm _)
  · simp [State.prependOut, teardownExpiry, State.timerDisarm, State.goto, State.post, State.emit]
  · rfl

theorem exec_prependOut (i : Instr) : exec i (s.prependOut o) = prependOutcome o (exec i s) := by
  cases i with
  | syn a | synack a | ack a | fin a | finack a | data a =>
    exact congrArg Host.Outcome.next (receive_prependOut o s _ a.src)
  | cmdReserved => exact congrArg Host.Outcome.next (refuse_prependOut o s)
  | encode f =>
    refine congrArg Host.Outcome.next (ite_prependOut o ?_ (refuse_prependOut o s))
    cases codecEncode f <;> exact post_prependOut o s _
  | decode b =>
    refine congrArg Host.Outcome.next (ite_prependOut o ?_ (refuse_prependOut o s))
    cases codecDecode b <;> exact post_prependOut o s _
  | openConn peer w =>
    refine congrArg Host.Outcome.next (ite_prependOut o ?_ (refuse_prependOut o s))
    simp [State.prependOut, State.tx, State.goto, State.timerArm]
  | accept | sendAll _ | recvAll => exact congrArg Host.Outcome.next (ite_prependOut o rfl (refuse_prependOut o s))
  | close =>
    refine congrArg Host.Outcome.next (ite_prependOut o ?_ (refuse_prependOut o s))
    simp [State.prependOut, State.tx, State.goto, State.timerArm]

/-! ## A step -/

theorem engineFetch_prependOut : (engineFetch (s.prependOut o)).run = prependOutcome o (engineFetch s).run := by
  rw [engineFetch_run, engineFetch_run]
  simp only [prependOut_lifecycle, prependOut_phase, prependOut_rxQueue]
  cases waitOf s.lifecycle s.phase with
  | none => exact congrArg Host.Outcome.next (internalStep_prependOut o s)
  | some w =>
    cases s.rxQueue with
    | nil => rfl
    | cons d q =>
      simp only
      cases codecDecode d.bytes with
      | none => exact congrArg Host.Outcome.next (raiseFatal_prependOut o s.rxPop _)
      | some f => exact congrArg Host.Outcome.next (receive_prependOut o s f d.src)

/-- A choice of outcomes that does not look at the outputs. -/
theorem ite_prependOutcome {c : Prop} [Decidable c] {a b a' b' : Host.Outcome State Fault Refusal}
    (ha : a' = prependOutcome o a) (hb : b' = prependOutcome o b) :
    ite c a' b' = prependOutcome o (ite c a b) := by
  rw [ha, hb, apply_ite (prependOutcome o)]

theorem moveFetch_prependOut (m : Move) :
    (moveFetch m (s.prependOut o)).run = prependOutcome o (moveFetch m s).run := by
  cases m with
  | engine => exact engineFetch_prependOut o s
  | command code args => exact exec_prependOut o s _
  | expire => exact congrArg Host.Outcome.next (timerExpiry_prependOut o s)
  | socketFail => exact congrArg Host.Outcome.next (ite_prependOut o rfl (raiseFatal_prependOut o s _))
  | seam seq armed => exact congrArg Host.Outcome.next (ite_prependOut o rfl rfl)
  | storeChunk k b => exact ite_prependOutcome o rfl (ite_prependOutcome o rfl rfl)
  | fillChunks data => exact ite_prependOutcome o rfl (ite_prependOutcome o rfl rfl)
  | deliver src b | reset | clock time => rfl

/-- A step runs the same way after any earlier outputs, which it leaves in front of its own. -/
theorem step_prependOut : step (s.prependOut o) = prependOutcome o (step s) := by
  cases hm : s.moves with
  | nil =>
    rw [step_engine (.inl hm), step_engine (s := s.prependOut o) (.inl hm)]
    exact engineFetch_prependOut o s.afterMove
  | cons m ms =>
    rw [step_cons hm, step_cons (s := s.prependOut o) hm]
    exact moveFetch_prependOut o s.afterMove m

end

theorem prependOutcome_eq_next {o : List Output} {r : Host.Outcome State Fault Refusal} {t : State} :
    prependOutcome o r = .next t ↔ ∃ t0, r = .next t0 ∧ t = t0.prependOut o := by
  cases r <;> simp [prependOutcome, eq_comm]

/-- Settles O56: the step of a state is that of the state with no outputs, run after its own outputs or after `o`. -/
theorem outputsAreNeverReadBack : Obligations.OutputsAreNeverReadBack := by
  unfold Obligations.OutputsAreNeverReadBack
  intro s t o h
  have hs : step s = prependOutcome s.out (step { s with out := [] }) := by
    rw [← step_prependOut, prependOut_nil_out]
  rw [hs, prependOutcome_eq_next] at h
  obtain ⟨t0, h0, rfl⟩ := h
  refine ⟨t0.out, rfl, ?_⟩
  rw [← prependOut_nil_out o s, step_prependOut, h0]
  rfl

end Sys2Proof.Machine
end

section
/-! PROOFS. The sender's byte count, the invariant after reset, the test seam, and the instruction that a step runs. -/

namespace Sys2Proof.Machine

/-! ## The sender's byte count -/

/-- With chunks of at most 992 bytes, `n` of them have at most `n * 992` bytes. -/
theorem chunkBytes_le {m : ChunkMem} (h : ∀ k, (chunkRead m k).length ≤ 992) (first last : Nat) :
    chunkBytes m first last ≤ (last + 1 - first) * 992 := by
  have hsum := List.sum_le_card_nsmul ((List.range' first (last + 1 - first)).map fun k => (chunkRead m k).length) 992
    (List.forall_mem_map.2 fun k _ => h k)
  simpa [chunkBytes] using hsum

/-- BASE is at most 65536 (spec/10_state.md R29, R31). -/
theorem SenderInv.base_le {s : State} (h : SenderInv s) : s.base.toNat ≤ 65536 := h.base_le_next.trans h.next_le

/-- Settles O34: at most 65535 chunks of at most 992 bytes are acknowledged, so the count modulo 2^32 that the invariant
keeps is the count itself. -/
theorem senderByteCountNeverWraps : Obligations.SenderByteCountNeverWraps := by
  unfold Obligations.SenderByteCountNeverWraps
  intro s hs hp hk
  have hsender := hs.sender hp
  have hbase := hsender.base_le
  have hle : chunkBytes s.chunks 1 (s.base.toNat - 1) ≤ 65010720 :=
    (chunkBytes_le hk 1 _).trans (by omega)
  have hbytes : s.bytes.toNat = chunkBytes s.chunks 1 (s.base.toNat - 1) := by
    rw [hsender.acked_bytes, BitVec.toNat_ofNat, Nat.mod_eq_of_lt (hle.trans_lt (by decide))]
  exact ⟨hbytes, hbytes.trans_le hle⟩

/-! ## The invariant after reset -/

/-- Whatever its free values are, the machine's parameters are within the bounds of spec/00_scope.md R9. -/
theorem params_wf : Config.params.wf = true := by
  simp only [Config.Params.wf, Config.Params.isAddr, Config.params, Bool.and_eq_true, bne_iff_ne]
  refine ⟨⟨⟨?advWindow, ?rxMax⟩, ?rxqDepth⟩, ?addrCount⟩
  case advWindow =>
    split
    · decide
    · assumption
  case rxMax =>
    apply decide_eq_true
    cases Config.rxMaxSetting <;> simp
  case rxqDepth => cases Config.rxqDepthDraw <;> simp
  case addrCount => cases Config.addrCountDraw <;> simp

/-- Every address of a reset state is 0. -/
theorem resetWith_addresses {p : Config.Params} {a : Addr} (h : a ∈ (State.resetWith p).addresses) : a = 0 := by
  simpa [State.addresses, State.resetWith] using h

theorem resetWith_inv {p : Config.Params} (h : p.wf = true) : (State.resetWith p).Inv where
  params := h
  addresses _ ha := resetWith_addresses ha ▸ isAddr_zero_of_wf h
  combination := rfl
  timer := rfl
  err := .inl rfl
  chunks := reset_chunks_wf
  queued_len := nofun
  queue_len n _ := Nat.zero_le n
  no_window _ := ⟨rfl, rfl⟩
  window := nofun
  sender := nofun
  receiver := nofun

/-- Settles O49: the invariant holds after reset for every record of parameters within the bounds, and the machine's own
is one. -/
theorem invariantAtReset : Obligations.InvariantAtReset := by
  unfold Obligations.InvariantAtReset
  exact ⟨resetWith_inv params_wf, fun _ => resetWith_inv⟩

/-! ## The test seam -/

theorem afterMove_eq {s : State} {m : Move} {ms : List Move} (h : s.moves = m :: ms) :
    s.afterMove = { s with moves := ms } := by
  rw [State.afterMove, h, List.tail_cons]

theorem seamWrite_idle {s : State} {seq : U16} {armed : Bool} (h1 : s.lifecycle = .idle) (h2 : s.phase = .none) :
    seamWrite seq armed s = { s with dropSeq := seq, dropArmed := armed } := if_pos ⟨h1, h2⟩

theorem seamWrite_elsewhere {s : State} {seq : U16} {armed : Bool} (h : s.lifecycle ≠ .idle ∨ s.phase ≠ .none) :
    seamWrite seq armed s = s := if_neg (not_and_or.2 h)

/-- Settles O47: the two cases of `seamWrite`. -/
theorem seamWritesOnlyWhenIdle : Obligations.SeamWritesOnlyWhenIdle := by
  unfold Obligations.SeamWritesOnlyWhenIdle
  intro s seq armed ms hm
  have hstep : step s = .next (seamWrite seq armed s.afterMove) := step_cons hm
  constructor
  · intro hl hp
    rw [hstep, seamWrite_idle (s := s.afterMove) hl hp, afterMove_eq hm]
  · intro h
    rw [hstep, seamWrite_elsewhere (s := s.afterMove) h, afterMove_eq hm]

/-! ## The decoded instruction -/

/-- A datagram that is an instruction has a header, and its frame is of a kind of the table. -/
theorem decode_datagram_ok {src : Addr} {b : Bytes} {i : Instr} (h : decode (.datagram src b) = .ok i) :
    ∃ f, codecDecode b = some f ∧ frameInstr f src = .ok i := by
  cases hd : codecDecode b with
  | none => simp [decode, hd] at h
  | some f => exact ⟨f, rfl, by simpa [decode, hd] using h⟩

/-- Settles O9: a command by `step_cons`, a datagram by `step_takes_frame`. -/
theorem stepRunsDecodedInstruction : Obligations.StepRunsDecodedInstruction := by
  unfold Obligations.StepRunsDecodedInstruction
  constructor
  · intro s code args ms i hm hi
    cases hi
    rw [step_cons hm, afterMove_eq hm]
    rfl
  · intro s d q i ht hw hq hi
    obtain ⟨f, hd, hf⟩ := decode_datagram_ok hi
    rw [step_takes_frame ht hw hq hd]
    exact (exec_frameInstr hf s.afterMove).symm

end Sys2Proof.Machine
end

section
/-! PROOFS. The RX port: a datagram's arrival, and the source address of a frame. -/

namespace Sys2Proof.Machine

/-! ## The arrival of a datagram -/

theorem queueFull_eq_true {p : Config.Params} {q : List Datagram} {n : Nat} (hd : p.rxqDepth = some n)
    (hn : n ≤ q.length) : queueFull p q = true := by
  simp [queueFull, hd, hn]

theorem deliver_room {s : State} (h : queueFull s.params s.rxQueue = false) (src : Addr) (b : Bytes) :
    s.deliver src b = { s with rxQueue := s.rxQueue ++ [⟨src, b.take s.params.rxMax⟩] } := by
  simp [State.deliver, h]

theorem deliver_full {s : State} (h : queueFull s.params s.rxQueue = true) (src : Addr) (b : Bytes) :
    s.deliver src b = s := by
  simp [State.deliver, h]

/-- Settles O45: the two cases of `State.deliver`. -/
theorem arrivalQueuesOrLoses : Obligations.ArrivalQueuesOrLoses := by
  unfold Obligations.ArrivalQueuesOrLoses
  intro s src b ms hm
  have hstep : step s = .next (s.afterMove.deliver src b) := step_cons hm
  constructor
  · intro hroom
    rw [hstep, deliver_room (s := s.afterMove) (queueFull_eq_false.2 hroom), afterMove_eq hm]
  · intro n hd hn
    rw [hstep, deliver_full (s := s.afterMove) (queueFull_eq_true hd hn), afterMove_eq hm]

/-! ## The source address of a frame -/

theorem codecDecode_of_short {b : Bytes} (h : b.length < 8) : codecDecode b = none := by
  unfold codecDecode
  split
  · simp at h; omega
  · rfl

theorem codecDecode_of_header {b : Bytes} (h : 8 ≤ b.length) : ∃ f, codecDecode b = some f := by
  obtain ⟨header, rest, hh, rfl⟩ : ∃ header rest, header.length = 8 ∧ b = header ++ rest :=
    ⟨b.take 8, b.drop 8, List.length_take_of_le h, (List.take_append_drop 8 b).symm⟩
  match header, hh with
  | [b0, b1, b2, b3, b4, b5, b6, b7], _ => exact ⟨_, rfl⟩

/-- The same state with another address in RXF.src. -/
def State.withRxfSrc (a : Addr) (s : State) : State := { s with rxfSrc := a }

section
variable (a : Addr) (s : State)

/-- A choice that does not look at RXF.src. -/
theorem ite_withRxfSrc {c : Prop} [Decidable c] {t u t' u' : State} (ht : t' = t.withRxfSrc a)
    (hu : u' = u.withRxfSrc a) : ite c t' u' = (ite c t u).withRxfSrc a := by
  rw [ht, hu, apply_ite (State.withRxfSrc a)]

theorem onSenderAck_withRxfSrc : onSenderAck (s.withRxfSrc a) = (onSenderAck s).withRxfSrc a := by
  have hack : applyAck s.rxf.ack (s.timerDisarm.withRxfSrc a) = (applyAck s.rxf.ack s.timerDisarm).withRxfSrc a :=
    ite_withRxfSrc a rfl rfl
  exact ite_withRxfSrc a
    (congrArg (fun u : State => { u.emit (.ackReceived s.rxf.ack) with phase := .fill }) hack) rfl

/-- Outside the server's two handshake waits no rule reads or writes RXF.src (spec/30_encoding.md R97). -/
theorem onFrame_withRxfSrc {w : Wait} (h1 : w ≠ .serverListen) (h2 : w ≠ .serverThird) :
    onFrame w (s.withRxfSrc a) = (onFrame w s).withRxfSrc a := by
  cases w with
  | serverListen => exact absurd rfl h1
  | serverThird => exact absurd rfl h2
  | clientReply => exact ite_withRxfSrc a rfl rfl
  | senderAck => exact onSenderAck_withRxfSrc a s
  | clientClose => exact ite_withRxfSrc a rfl rfl
  | receiver => exact ite_withRxfSrc a rfl (ite_withRxfSrc a rfl (ite_withRxfSrc a rfl rfl))

end

/-- The source of a frame reaches no register but RXF.src, outside the server's two handshake waits. -/
theorem receive_withRxfSrc {s : State} (h1 : waitOf s.lifecycle s.phase ≠ some .serverListen)
    (h2 : waitOf s.lifecycle s.phase ≠ some .serverThird) (h3 : waitOf s.lifecycle s.phase ≠ none) (f : Frame)
    (a b : Addr) : receive f a s = (receive f b s).withRxfSrc a := by
  obtain ⟨w, hw⟩ := Option.ne_none_iff_exists'.1 h3
  rw [hw] at h1 h2
  rw [receive_waiting hw, receive_waiting hw]
  exact onFrame_withRxfSrc a (s.takeFrame f b) (by simpa using h1) (by simpa using h2)

/-- A frame is popped with its queue entry, so the entry itself makes no difference. -/
theorem receive_head {s : State} (h : waitOf s.lifecycle s.phase ≠ none) (d e : Datagram) (q : List Datagram) (f : Frame)
    (src : Addr) : receive f src { s with rxQueue := d :: q } = receive f src { s with rxQueue := e :: q } := by
  obtain ⟨w, hw⟩ := Option.ne_none_iff_exists'.1 h
  rw [receive_waiting (s := { s with rxQueue := d :: q }) hw, receive_waiting (s := { s with rxQueue := e :: q }) hw]
  rfl

/-- Settles O57: `receive_withRxfSrc`, and the engine's step by whether the datagram has a header. -/
theorem sourceAddressNotExamined : Obligations.SourceAddressNotExamined := by
  unfold Obligations.SourceAddressNotExamined
  refine ⟨fun s f a b h1 h2 h3 => receive_withRxfSrc h1 h2 h3 f a b, ?header, ?short⟩
  case header =>
    intro s bs q a b ht h1 h2 h3 hlen
    obtain ⟨f, hf⟩ := codecDecode_of_header hlen
    have hstep (src : Addr) : step { s with rxQueue := ⟨src, bs⟩ :: q } =
        .next (receive f src { s.afterMove with rxQueue := ⟨src, bs⟩ :: q }) :=
      step_takes_frame (s := { s with rxQueue := ⟨src, bs⟩ :: q }) ht h3 rfl hf
    have hsrc (x y : Addr) := receive_withRxfSrc (s := { s.afterMove with rxQueue := ⟨a, bs⟩ :: q }) h1 h2 h3 f x y
    refine ⟨_, hstep a, ?_, ?_⟩
    · rw [hsrc a b]; rfl
    · rw [hstep b, receive_head (s := s.afterMove) h3 ⟨b, bs⟩ ⟨a, bs⟩, hsrc b a]; rfl
  case short =>
    intro s bs q a b ht h3 hlen
    have hstep (src : Addr) : step { s with rxQueue := ⟨src, bs⟩ :: q } =
        .next (raiseFatal .shortHeader { s.afterMove with rxQueue := q }) :=
      step_takes_short (s := { s with rxQueue := ⟨src, bs⟩ :: q }) ht h3 rfl (codecDecode_of_short hlen)
    exact ⟨_, hstep a, hstep b⟩

end Sys2Proof.Machine
end

section
/-! PROOFS. Chunk memory: the cut of data into chunks, reading after a store and after a fill, and the host's two
writes. -/

namespace Sys2Proof.Machine

/-! ## The cut of data into chunks -/

theorem cutAt992_succ {data : Bytes} (h : data ≠ []) (fuel : Nat) :
    cutAt992 (fuel + 1) data = data.take 992 :: cutAt992 fuel (data.drop 992) := by
  cases data with
  | nil => exact absurd rfl h
  | cons b rest => rfl

/-- The cut by its recursion on the data: nothing of nothing, else the first 992 bytes and the cut of the rest. -/
theorem cutData_induction {P : Bytes → List Bytes → Prop} (nil : P [] [])
    (cons : ∀ data cs, data ≠ [] → P (data.drop 992) cs → P data (data.take 992 :: cs)) (data : Bytes) :
    P data (cutData data) := by
  have hfuel (fuel : Nat) : ∀ data : Bytes, data.length ≤ fuel → P data (cutAt992 fuel data) := by
    induction fuel with
    | zero =>
      intro data hf
      obtain rfl := List.length_eq_zero_iff.1 (Nat.le_zero.1 hf)
      exact nil
    | succ fuel ih =>
      intro data hf
      by_cases hd : data = []
      · subst hd; exact nil
      · have hpos := List.length_pos_iff.2 hd
        rw [cutAt992_succ hd]
        exact cons data _ hd (ih _ (by rw [List.length_drop]; omega))
  exact hfuel data.length data (Nat.le_refl _)

theorem cutData_flatten (data : Bytes) : (cutData data).flatten = data := by
  induction data using cutData_induction with
  | nil => rfl
  | cons data cs _ ih => rw [List.flatten_cons, ih, List.take_append_drop]

theorem cutData_length (data : Bytes) : (cutData data).length = (data.length + 991) / 992 := by
  induction data using cutData_induction with
  | nil => rfl
  | cons data cs hd ih =>
    have hpos := List.length_pos_iff.2 hd
    rw [List.length_cons, ih, List.length_drop]
    omega

theorem cutData_getElem {data : Bytes} {k : Nat} (h : k < (cutData data).length) :
    (cutData data)[k] = (data.drop (992 * k)).take 992 := by
  induction data using cutData_induction generalizing k with
  | nil => cases h
  | cons data cs _ ih =>
    cases k with
    | zero => rfl
    | succ k =>
      rw [List.getElem_cons_succ, ih (Nat.lt_of_succ_lt_succ h), List.drop_drop, Nat.add_comm, Nat.mul_succ]

theorem cutData_getElem_length {data : Bytes} {k : Nat} (h : k < (cutData data).length) :
    ((cutData data)[k]).length = min 992 (data.length - 992 * k) := by
  rw [cutData_getElem h, List.length_take, List.length_drop]

/-! ## Reading chunk memory -/

theorem chunkRead_unlisted {m : ChunkMem} {k : Nat} (h : ∀ e ∈ m, e.1 ≠ k) : chunkRead m k = unlistedChunk := by
  induction m with
  | nil => rfl
  | cons e m ih =>
    obtain ⟨he, hm⟩ := List.forall_mem_cons.1 h
    exact (if_neg he).trans (ih hm)

theorem chunkRead_numberFrom {cs : List Bytes} {i : Nat} (first : Nat) (h : i < cs.length) :
    chunkRead (numberFrom first cs) (first + i) = cs[i] := by
  induction cs generalizing first i with
  | nil => cases h
  | cons c cs ih =>
    cases i with
    | zero => exact if_pos rfl
    | succ i =>
      have hread := ih (first + 1) (Nat.lt_of_succ_lt_succ h)
      rw [Nat.add_right_comm] at hread
      exact (if_neg (by omega)).trans hread

theorem chunkRead_numberFrom_outside {cs : List Bytes} {first k : Nat} (h : k < first ∨ first + cs.length ≤ k) :
    chunkRead (numberFrom first cs) k = unlistedChunk := by
  refine chunkRead_unlisted fun e he => ?_
  obtain ⟨h1, h2, -⟩ := numberFrom_mem he
  omega

theorem chunkRead_numberFrom_one {cs : List Bytes} {k : Nat} (h : k < cs.length) :
    chunkRead (numberFrom 1 cs) (k + 1) = cs[k] := by
  rw [Nat.add_comm, chunkRead_numberFrom 1 h]

/-- Settles O60: the count, the concatenation and the pieces of `cutData`, and `chunkRead_numberFrom`. -/
theorem dataCutAtFixedBoundaries : Obligations.DataCutAtFixedBoundaries := by
  unfold Obligations.DataCutAtFixedBoundaries
  intro data
  have hlen := cutData_length data
  refine ⟨hlen, cutData_flatten data, fun k h hk => ?whole, fun h => ?last, fun k h => chunkRead_numberFrom_one h⟩
  case whole => rw [cutData_getElem_length h]; omega
  case last => rw [cutData_getElem_length (by omega)]; omega

/-! ## Reading after a store -/

theorem chunkRead_cons (i : Nat) (c : Bytes) (m : ChunkMem) (j : Nat) :
    chunkRead ((i, c) :: m) j = if i = j then c else chunkRead m j := rfl

/-- A chunk put in front of entries with other numbers, or left out where it is what an unlisted chunk reads as. -/
theorem chunkRead_placed {m : ChunkMem} {k : Nat} (h : ∀ e ∈ m, e.1 ≠ k) (j : Nat) (b : Bytes) :
    chunkRead (if b = unlistedChunk then m else (k, b) :: m) j = if j = k then b else chunkRead m j := by
  by_cases hj : j = k
  · subst hj
    by_cases hb : b = unlistedChunk <;> simp [hb, chunkRead_cons, chunkRead_unlisted h]
  · rw [if_neg hj]
    split
    · rfl
    · rw [chunkRead_cons, if_neg (Ne.symm hj)]

/-- Reading after a store, in chunk memory whose numbers rise (spec/20_memory.md R62). -/
theorem chunkRead_chunkWrite {m : ChunkMem} (hm : m.Pairwise fun a b => a.1 < b.1) (k j : Nat) (b : Bytes) :
    chunkRead (chunkWrite m k b) j = if j = k then b else chunkRead m j := by
  induction m with
  | nil => exact chunkRead_placed (fun e he => by cases he) j b
  | cons e m ih =>
    obtain ⟨i, c⟩ := e
    obtain ⟨hi, hm⟩ := List.pairwise_cons.1 hm
    simp only [chunkWrite]
    rcases Nat.lt_trichotomy k i with hk | rfl | hk
    · have hkeys : ∀ e ∈ (i, c) :: m, e.1 ≠ k :=
        List.forall_mem_cons.2 ⟨hk.ne', fun e he => (hk.trans (hi e he)).ne'⟩
      rw [if_pos hk, chunkRead_placed hkeys]
    · rw [if_neg (Nat.lt_irrefl k), if_pos rfl, chunkRead_placed fun e he => (hi e he).ne', chunkRead_cons]
      split
      · rfl
      · rw [if_neg (Ne.symm ‹_›)]
    · rw [if_neg hk.asymm, if_neg hk.ne', chunkRead_cons, chunkRead_cons, ih hm]
      by_cases hj : i = j
      · rw [if_pos hj, if_pos hj, if_neg (by omega)]
      · rw [if_neg hj, if_neg hj]

/-! ## The host's writes -/

theorem sending_eq_true {p : Phase} : sending p = true ↔ p = .fill ∨ p = .wait ∨ p = .retx := by
  cases p <;> decide

theorem sending_eq_false {p : Phase} (h1 : p ≠ .fill) (h2 : p ≠ .wait) (h3 : p ≠ .retx) : sending p = false := by
  simp [sending, h1, h2, h3]

section
variable {k : Nat} {b data : Bytes} {s : State}

theorem hostStoreChunk_sending (h : sending s.phase = true) : hostStoreChunk k b s = .refused .chunkMemoryInUse :=
  if_pos h

theorem hostStoreChunk_noSuchChunk (h : sending s.phase = false) (hk : k = 0 ∨ 65535 < k) :
    hostStoreChunk k b s = .fault .noSuchChunk := by
  rw [hostStoreChunk, if_neg (by simp [h]), if_neg fun (hk' : 1 ≤ k ∧ k ≤ 65535) => by omega]

theorem hostStoreChunk_writes (h : sending s.phase = false) (h1 : 1 ≤ k) (h2 : k ≤ 65535) :
    hostStoreChunk k b s = .next { s with chunks := chunkWrite s.chunks k b } := by
  rw [hostStoreChunk, if_neg (by simp [h]), if_pos ⟨h1, h2⟩]

theorem hostFillChunks_sending (h : sending s.phase = true) : hostFillChunks data s = .refused .chunkMemoryInUse :=
  if_pos h

theorem hostFillChunks_noSuchChunk (h : sending s.phase = false) (hn : 65535 < (cutData data).length) :
    hostFillChunks data s = .fault .noSuchChunk := by
  rw [hostFillChunks, if_neg (by simp [h]), if_neg (Nat.not_le.2 hn)]

theorem hostFillChunks_writes (h : sending s.phase = false) (hn : (cutData data).length ≤ 65535) :
    hostFillChunks data s = .next { s with chunks := numberFrom 1 (cutData data) } := by
  rw [hostFillChunks, if_neg (by simp [h]), if_pos hn]

end

/-- Settles O59: `chunkRead_chunkWrite`, and the cases of the host's two writes. -/
theorem chunkReadAfterStore : Obligations.ChunkReadAfterStore := by
  unfold Obligations.ChunkReadAfterStore
  refine ⟨fun m k j b hm => chunkRead_chunkWrite hm.1 k j b, ?store, ?fill⟩
  case store =>
    intro s k b ms hm
    have hstep : step s = hostStoreChunk k b s.afterMove := step_cons hm
    rw [hstep, afterMove_eq hm]
    refine ⟨fun hp => hostStoreChunk_sending (sending_eq_true.2 hp),
      fun h1 h2 h3 hk => hostStoreChunk_noSuchChunk (sending_eq_false h1 h2 h3) hk, fun h1 h2 h3 hk hk' hwf => ?_⟩
    exact ⟨chunkWrite s.chunks k b, hostStoreChunk_writes (sending_eq_false h1 h2 h3) hk hk', chunkWrite_wf hwf hk hk',
      fun j => chunkRead_chunkWrite hwf.1 k j b⟩
  case fill =>
    intro s data ms hm
    have hstep : step s = hostFillChunks data s.afterMove := step_cons hm
    rw [hstep, afterMove_eq hm]
    refine ⟨fun hp => hostFillChunks_sending (sending_eq_true.2 hp),
      fun h1 h2 h3 hn => hostFillChunks_noSuchChunk (sending_eq_false h1 h2 h3) hn, fun h1 h2 h3 hn => ?_⟩
    exact ⟨numberFrom 1 (cutData data), hostFillChunks_writes (sending_eq_false h1 h2 h3) hn, fill_wf hn,
      fun k h => chunkRead_numberFrom_one h, fun k hk => chunkRead_numberFrom_outside (by omega)⟩

end Sys2Proof.Machine
end

section
/-! PROOFS. The encodings: decode and encode are inverse to each other on the instructions of the table, and the header
word with the row that selects each kind. -/

namespace Sys2Proof.Machine

/-! ## Bytes and frames -/

theorem be16_unbe16 (b0 b1 : Byte) : be16 (unbe16 b0 b1) = [b0, b1] := by
  have h0 := b0.isLt
  have h1 := b1.isLt
  have hv : (unbe16 b0 b1).toNat = 256 * b0.toNat + b1.toNat := by simp [unbe16]; omega
  have hhigh : (256 * b0.toNat + b1.toNat) / 256 = b0.toNat := by omega
  have hlow : (256 * b0.toNat + b1.toNat) % 256 = b1.toNat := by omega
  simp [be16, hv, hhigh, hlow]

/-- The law of spec/40_codec.md R125 on the bytes of any frame, of any payload length. -/
@[simp] theorem codecDecode_bytes (f : Frame) : codecDecode f.bytes = some f := by
  simp [Frame.bytes, be16, codecDecode]

/-- The inverse law of spec/40_codec.md R135. -/
theorem bytes_of_codecDecode {b : Bytes} {f : Frame} (h : codecDecode b = some f) : f.bytes = b := by
  unfold codecDecode at h
  split at h
  · cases h; simp [Frame.bytes, be16_unbe16]
  · cases h

/-! ## Kinds -/

/-- The flags value of a kind's row in spec/30_encoding.md R95; OTHER has none. -/
def kindFlags : Kind → Option U16
  | .syn => some flagsSyn
  | .synack => some flagsSynack
  | .ack => some flagsAck
  | .fin => some flagsFin
  | .finack => some flagsFinack
  | .data => some flagsData
  | .other => none

/-- A frame is of a kind of the table exactly when it has the flags of the kind's row and, for DATA, a sequence other
than 0 (spec/30_encoding.md R95, R96). -/
theorem kind_eq_iff {f : Frame} {k : Kind} {fl : U16} (hk : kindFlags k = some fl) :
    f.kind = k ↔ f.flags = fl ∧ (k = .data → f.seq ≠ 0) := by
  constructor
  · rintro rfl
    unfold Frame.kind at hk ⊢
    split_ifs at hk ⊢ <;> simp_all [kindFlags]
  · rintro ⟨hf, hseq⟩
    unfold Frame.kind
    cases k <;> cases hk <;> simp_all [flagsSyn, flagsSynack, flagsAck, flagsFin, flagsFinack, flagsData]

/-! ## Decode and encode -/

theorem decode_frame (a : FrameArgs) (fl : U16) :
    decode (.datagram a.src (a.frame fl).bytes) = frameInstr (a.frame fl) a.src := by
  simp [decode]

/-- Settles O5: a frame kind by its row's flags, a command by its code. -/
theorem decodeOfEncodeIsIdentity : Obligations.DecodeOfEncodeIsIdentity := by
  unfold Obligations.DecodeOfEncodeIsIdentity
  intro i hi
  cases i with
  | syn a | synack a | ack a | fin a | finack a => exact decode_frame a _
  | data a =>
    have hkind : (a.frame flagsData).kind = .data := (kind_eq_iff rfl).2 ⟨rfl, fun _ => bne_iff_ne.1 hi⟩
    exact (decode_frame a flagsData).trans (by rw [frameInstr, hkind]; rfl)
  | cmdReserved | encode f | decode b | openConn peer w | accept | sendAll total | recvAll | close => rfl

/-- An instruction read from a frame is in the table, and its datagram is the frame's bytes. -/
theorem encode_of_frameInstr {f : Frame} {src : Addr} {i : Instr} (h : frameInstr f src = .ok i) :
    i.inTable = true ∧ encode i = .datagram src f.bytes := by
  have hframe {fl : U16} (hf : f.flags = fl) : (f.args src).frame fl = f := hf ▸ rfl
  cases hkind : f.kind <;> simp only [frameInstr, hkind] at h <;> cases h
  case data =>
    obtain ⟨hflags, hseq⟩ := (kind_eq_iff rfl).1 hkind
    exact ⟨bne_iff_ne.2 (hseq rfl), by rw [encode, hframe hflags]; rfl⟩
  all_goals
    obtain ⟨hflags, -⟩ := (kind_eq_iff rfl).1 hkind
    exact ⟨rfl, by rw [encode, hframe hflags]; rfl⟩

/-- Settles O6: `encode_of_frameInstr` on the frame of the datagram, whose bytes are the datagram. -/
theorem encodeOfDecodeIsIdentity : Obligations.EncodeOfDecodeIsIdentity := by
  unfold Obligations.EncodeOfDecodeIsIdentity
  intro src b i h
  obtain ⟨f, hd, hf⟩ := decode_datagram_ok h
  rw [← bytes_of_codecDecode hd]
  exact encode_of_frameInstr hf

/-! ## The header word -/

theorem headerWord_toNat (f : Frame) : f.headerWord.toNat =
    f.seq.toNat * 2 ^ 48 + f.ack.toNat * 2 ^ 32 + f.flags.toNat * 2 ^ 16 + f.window.toNat := by
  have hseq := f.seq.isLt
  have hack := f.ack.isLt
  have hflags := f.flags.isLt
  have hwindow := f.window.isLt
  simp only [Frame.headerWord, BitVec.toNat_ofNat]
  omega

/-- The header word by its fields, from the least significant bits up. -/
theorem headerWord_toNat_nested (f : Frame) : f.headerWord.toNat =
    2 ^ 16 * (2 ^ 16 * (2 ^ 16 * f.seq.toNat + f.ack.toNat) + f.flags.toNat) + f.window.toNat := by
  rw [headerWord_toNat]
  omega

theorem headerWord_getLsbD (f : Frame) (i : Nat) : f.headerWord.getLsbD i =
    if i < 16 then f.window.getLsbD i
    else if i - 16 < 16 then f.flags.getLsbD (i - 16)
    else if i - 16 - 16 < 16 then f.ack.getLsbD (i - 16 - 16)
    else f.seq.getLsbD (i - 16 - 16 - 16) := by
  rw [← BitVec.testBit_toNat, headerWord_toNat_nested, Nat.testBit_two_pow_mul_add _ f.window.isLt,
    Nat.testBit_two_pow_mul_add _ f.flags.isLt, Nat.testBit_two_pow_mul_add _ f.ack.isLt]
  simp only [BitVec.testBit_toNat]

/-- A flags value at its place in a header word, 0 elsewhere: the form of a row's match (spec/30_encoding.md R95). -/
def flagsInWord (fl : U16) : BitVec 64 := fl.setWidth 64 <<< 16

theorem flagsInWord_getLsbD (fl : U16) {i : Nat} (h : i < 64) :
    (flagsInWord fl).getLsbD i = (!decide (i < 16) && fl.getLsbD (i - 16)) := by
  have hsub : i - 16 < 64 := by omega
  simp only [flagsInWord, BitVec.getLsbD_shiftLeft, BitVec.getLsbD_setWidth, h, hsub, decide_true, Bool.true_and]

theorem flagsInWord_inj {a b : U16} : flagsInWord a = flagsInWord b ↔ a = b := by
  refine ⟨fun h => ?_, congrArg flagsInWord⟩
  have htoNat := congrArg BitVec.toNat h
  have ha := a.isLt
  have hb := b.isLt
  simp only [flagsInWord, BitVec.toNat_shiftLeft, BitVec.toNat_setWidth, Nat.shiftLeft_eq] at htoNat
  exact BitVec.eq_of_toNat_eq (by omega)

/-- The mask of the kinds' rows leaves the flags field of a header word. -/
theorem headerWord_and_mask (f : Frame) : f.headerWord &&& 0x00000000FFFF0000#64 = flagsInWord f.flags := by
  have hmask : 0x00000000FFFF0000#64 = flagsInWord (BitVec.allOnes 16) := by decide
  apply BitVec.eq_of_getLsbD_eq
  intro i hi
  rw [hmask, BitVec.getLsbD_and, flagsInWord_getLsbD _ hi, flagsInWord_getLsbD _ hi, headerWord_getLsbD,
    BitVec.getLsbD_allOnes]
  by_cases h1 : i < 16
  · simp [h1]
  · by_cases h2 : i - 16 < 16
    · simp [h1, h2]
    · simp [h1, h2, BitVec.getLsbD_of_ge f.flags (i - 16) (by omega)]

/-- A 16-bit field of the header word, from what its bits are. -/
theorem headerWord_extract {f : Frame} {start : Nat} {v : U16}
    (h : ∀ i < 16, f.headerWord.getLsbD (start + i) = v.getLsbD i) : f.headerWord.extractLsb' start 16 = v := by
  apply BitVec.eq_of_getLsbD_eq
  intro i hi
  rw [BitVec.getLsbD_extractLsb', h i hi, decide_eq_true hi, Bool.true_and]

theorem headerWord_windowBit (f : Frame) {i : Nat} (hi : i < 16) :
    f.headerWord.getLsbD (0 + i) = f.window.getLsbD i := by
  rw [headerWord_getLsbD, Nat.zero_add, if_pos hi]

theorem headerWord_flagBit (f : Frame) {i : Nat} (hi : i < 16) : f.headerWord.getLsbD (16 + i) = f.flags.getLsbD i := by
  rw [headerWord_getLsbD, if_neg (by omega), Nat.add_sub_cancel_left, if_pos hi]

theorem headerWord_ackBit (f : Frame) {i : Nat} (hi : i < 16) : f.headerWord.getLsbD (32 + i) = f.ack.getLsbD i := by
  have hsub : 32 + i - 16 - 16 = i := by omega
  rw [headerWord_getLsbD, if_neg (by omega), if_neg (by omega), hsub, if_pos hi]

theorem headerWord_seqBit (f : Frame) {i : Nat} (hi : i < 16) : f.headerWord.getLsbD (48 + i) = f.seq.getLsbD i := by
  have hsub : 48 + i - 16 - 16 - 16 = i := by omega
  rw [headerWord_getLsbD, if_neg (by omega), if_neg (by omega), if_neg (by omega), hsub]

/-- A row of spec/opcode_table.json, with match `m`, selects the frames of its kind. -/
theorem kind_eq_iff_headerWord {f : Frame} {k : Kind} {fl : U16} {m : BitVec 64} (hk : kindFlags k = some fl)
    (hm : flagsInWord fl = m) :
    f.kind = k ↔ f.headerWord &&& 0x00000000FFFF0000#64 = m ∧ (k = .data → f.seq ≠ 0) := by
  rw [kind_eq_iff hk, headerWord_and_mask, ← hm, flagsInWord_inj]

/-- Settles O7: the fields of the header word by their bits, and the rows by `kind_eq_iff_headerWord`. -/
theorem headerWordSelectsKindRow : Obligations.HeaderWordSelectsKindRow := by
  unfold Obligations.HeaderWordSelectsKindRow
  intro f
  have hflag {i : Nat} (hi : i < 16) := headerWord_flagBit f hi
  have hrow {k : Kind} {fl : U16} {m : BitVec 64} (hk : kindFlags k = some fl) (hm : flagsInWord fl = m)
      (hdata : k ≠ .data) : f.kind = k ↔ f.headerWord &&& 0x00000000FFFF0000#64 = m :=
    (kind_eq_iff_headerWord hk hm).trans (and_iff_left fun h => absurd h hdata)
  refine ⟨headerWord_toNat f, hflag (by decide : 0 < 16), hflag (by decide : 1 < 16), hflag (by decide : 2 < 16),
    hflag (by decide : 3 < 16), headerWord_extract fun _ => headerWord_seqBit f,
    headerWord_extract fun _ => headerWord_ackBit f, headerWord_extract fun _ => headerWord_flagBit f,
    headerWord_extract fun _ => headerWord_windowBit f, ?syn, ?synack, ?ack, ?fin, ?finack, ?data⟩
  case syn => exact hrow rfl (by decide : flagsInWord flagsSyn = _) nofun
  case synack => exact hrow rfl (by decide : flagsInWord flagsSynack = _) nofun
  case ack => exact hrow rfl (by decide : flagsInWord flagsAck = _) nofun
  case fin => exact hrow rfl (by decide : flagsInWord flagsFin = _) nofun
  case finack => exact hrow rfl (by decide : flagsInWord flagsFinack = _) nofun
  case data =>
    rw [kind_eq_iff_headerWord rfl (by decide : flagsInWord flagsData = 0x0000000000000000#64)]
    exact and_congr_right' (forall_prop_of_true rfl)

/-- Settles O8: the decoder runs on each word. -/
theorem sampleWordsDecode : Obligations.SampleWordsDecode := by
  unfold Obligations.SampleWordsDecode
  decide

end Sys2Proof.Machine
end

section
/-! PROOFS. The flag bits of a received frame: the receive tests of spec/30_encoding.md R97, which read FIN, SYN and ACK
by a mask, and the reserved bits of R98, which no rule reads. -/

namespace Sys2Proof.Machine

/-! ## Masks -/

/-- A one-bit mask tests its bit. -/
theorem and_twoPow_eq_iff {n i : Nat} (hi : i < n) (fl : BitVec n) :
    fl &&& BitVec.twoPow n i = BitVec.twoPow n i ↔ fl.getLsbD i = true := by
  rw [BitVec.and_twoPow]
  split
  · simp [*]
  · refine iff_of_false (fun h => ?_) ‹_›
    simpa [hi] using congrArg (fun x : BitVec n => x.getLsbD i) h

/-- A mask of two parts tests both. -/
theorem and_or_eq_iff {n : Nat} (fl a b : BitVec n) :
    fl &&& (a ||| b) = a ||| b ↔ fl &&& a = a ∧ fl &&& b = b := by
  simp only [BitVec.eq_of_getLsbD_eq_iff, BitVec.getLsbD_and, BitVec.getLsbD_or, ← forall_and]
  refine forall₂_congr fun i _ => ?_
  cases fl.getLsbD i <;> simp

theorem finBit_iff (f : Frame) : f.flags &&& 0x0001 = 0x0001 ↔ finBit f = true :=
  and_twoPow_eq_iff (i := 0) (by decide) f.flags

theorem synBit_iff (f : Frame) : f.flags &&& 0x0002 = 0x0002 ↔ synBit f = true :=
  and_twoPow_eq_iff (i := 1) (by decide) f.flags

theorem ackBit_iff (f : Frame) : f.flags &&& 0x0008 = 0x0008 ↔ ackBit f = true :=
  and_twoPow_eq_iff (i := 3) (by decide) f.flags

theorem synAckBits_iff (f : Frame) : f.flags &&& 0x000A = 0x000A ↔ synBit f = true ∧ ackBit f = true := by
  rw [← synBit_iff, ← ackBit_iff]
  exact and_or_eq_iff f.flags 0x0002 0x0008

/-- A bit under the mask is the same in two values that agree under it. -/
theorem getLsbD_eq_of_and_eq {n i : Nat} {a b m : BitVec n} (h : a &&& m = b &&& m) (hi : m.getLsbD i = true) :
    a.getLsbD i = b.getLsbD i := by
  simpa [hi] using congrArg (fun x : BitVec n => x.getLsbD i) h

/-! ## The receive tests -/

/-- On the engine's turn a decodable head of the RX queue gives a next state, and in a wait that is its rule's. -/
theorem step_head_frame {s : State} {d : Datagram} {q : List Datagram} {f : Frame} (ht : enginesTurn s)
    (hq : s.rxQueue = d :: q) (hd : codecDecode d.bytes = some f) :
    ∃ t, step s = .next t ∧
      ∀ w, waitOf s.lifecycle s.phase = some w → t = onFrame w (s.afterMove.takeFrame f d.src) := by
  by_cases hw : waitOf s.lifecycle s.phase = none
  · exact ⟨_, step_internal ht hw, fun w h => by simp [hw] at h⟩
  · exact ⟨_, step_takes_frame ht hw hq hd, fun w h => receive_waiting (s := s.afterMove) h f d.src⟩

section
variable (s : State)

theorem onClientReply_tests :
    (s.rxf.flags &&& 0x000A = 0x000A →
      (onClientReply s).lifecycle = .established ∧ (onClientReply s).err = s.err) ∧
    (s.rxf.flags &&& 0x000A ≠ 0x000A →
      (onClientReply s).lifecycle = .closed ∧ (onClientReply s).err = .handshakeProtocolError) := by
  rw [ne_eq, synAckBits_iff]
  constructor
  · rintro ⟨hsyn, hack⟩
    rw [onClientReply_synack hsyn hack]
    exact ⟨rfl, rfl⟩
  · intro h
    rw [onClientReply_other h]
    exact ⟨rfl, rfl⟩

theorem onServerListen_tests :
    (s.rxf.flags &&& 0x0002 = 0x0002 →
      (onServerListen s).lifecycle = .synRcvd ∧ (onServerListen s).err = s.err) ∧
    (s.rxf.flags &&& 0x0002 ≠ 0x0002 →
      (onServerListen s).lifecycle = .closed ∧ (onServerListen s).err = .handshakeProtocolError) := by
  rw [ne_eq, synBit_iff, Bool.not_eq_true]
  constructor
  · intro h
    rw [onServerListen_syn h]
    exact ⟨rfl, rfl⟩
  · intro h
    rw [onServerListen_other h]
    exact ⟨rfl, rfl⟩

theorem onServerThird_tests :
    (s.rxf.flags &&& 0x0008 = 0x0008 →
      (onServerThird s).lifecycle = .established ∧ (onServerThird s).err = s.err) ∧
    (s.rxf.flags &&& 0x0008 ≠ 0x0008 →
      (onServerThird s).lifecycle = .closed ∧ (onServerThird s).err = .handshakeProtocolError) := by
  rw [ne_eq, ackBit_iff, Bool.not_eq_true]
  constructor
  · intro h
    rw [onServerThird_ack h]
    exact ⟨rfl, rfl⟩
  · intro h
    rw [onServerThird_other h]
    exact ⟨rfl, rfl⟩

theorem onSenderAck_tests :
    (s.rxf.flags &&& 0x0008 = 0x0008 → (onSenderAck s).phase = .fill) ∧
    (s.rxf.flags &&& 0x0008 ≠ 0x0008 → (onSenderAck s).phase = s.phase) := by
  rw [ne_eq, ackBit_iff, Bool.not_eq_true]
  exact ⟨fun h => by rw [onSenderAck_ack h], fun h => by rw [onSenderAck_other h]⟩

theorem onClientClose_tests :
    (s.rxf.flags &&& 0x0008 = 0x0008 → (onClientClose s).lifecycle = .closed) ∧
    (s.rxf.flags &&& 0x0008 ≠ 0x0008 → (onClientClose s).lifecycle = s.lifecycle) := by
  rw [ne_eq, ackBit_iff, Bool.not_eq_true]
  exact ⟨fun h => by rw [onClientClose_ack h]; rfl, fun h => by rw [onClientClose_other h]⟩

/-- The rules of RECV other than FIN stay in RECV. -/
theorem onReceiver_tests :
    (s.rxf.flags &&& 0x0001 = 0x0001 → (onReceiver s).lifecycle = .finRcvd) ∧
    (s.rxf.flags &&& 0x0001 ≠ 0x0001 →
      (onReceiver s).lifecycle = s.lifecycle ∧ (onReceiver s).phase = s.phase) := by
  rw [ne_eq, finBit_iff]
  refine ⟨fun h => by rw [onReceiver_fin h]; rfl, fun h => ?_⟩
  rw [onReceiver, if_neg h]
  split
  · exact ⟨rfl, rfl⟩
  · split <;> exact ⟨rfl, rfl⟩

end

/-- Settles O26: the frame's rule by `step_head_frame`, then the tests of each wait. -/
theorem receiveTestTable : Obligations.ReceiveTestTable := by
  unfold Obligations.ReceiveTestTable
  intro s d q f ht hq hd
  obtain ⟨t, hstep, hrule⟩ := step_head_frame ht hq hd
  refine ⟨t, hstep, ?clientReply, ?serverListen, ?serverThird, ?senderAck, ?clientClose, ?receiver⟩ <;> intro hl hp
  case clientReply =>
    rw [hrule .clientReply (by rw [hl, hp]; rfl)]
    exact onClientReply_tests (s.afterMove.takeFrame f d.src)
  case serverListen =>
    rw [hrule .serverListen (by rw [hl, hp]; rfl)]
    exact onServerListen_tests (s.afterMove.takeFrame f d.src)
  case serverThird =>
    rw [hrule .serverThird (by rw [hl, hp]; rfl)]
    exact onServerThird_tests (s.afterMove.takeFrame f d.src)
  case senderAck =>
    rw [hrule .senderAck (by rw [hl, hp]; rfl), ← hp]
    exact onSenderAck_tests (s.afterMove.takeFrame f d.src)
  case clientClose =>
    rw [hrule .clientClose (by rw [hl, hp]; rfl), ← hl]
    exact onClientClose_tests (s.afterMove.takeFrame f d.src)
  case receiver =>
    rw [hrule .receiver (by rw [hl, hp]; rfl), ← hl, ← hp]
    exact onReceiver_tests (s.afterMove.takeFrame f d.src)

/-! ## The reserved bits -/

/-- The same state with another frame in RXF. -/
def State.withRxf (g : Frame) (s : State) : State := { s with rxf := g }

/-- A choice whose test comes out the same with another frame in RXF. -/
theorem ite_withRxf {g : Frame} {c c' : Prop} [Decidable c] [Decidable c'] {t u t' u' : State} (hc : c' ↔ c)
    (ht : t' = t.withRxf g) (hu : u' = u.withRxf g) : ite c' t' u' = (ite c t u).withRxf g := by
  rw [ht, hu, apply_ite (State.withRxf g)]
  exact if_congr hc rfl rfl

/-- No rule reads a flag but FIN, SYN and ACK (spec/30_encoding.md R97, R98). -/
theorem onFrame_withRxf {fl : U16} {s : State} (w : Wait) (h : fl &&& 0x000B = s.rxf.flags &&& 0x000B) :
    onFrame w (s.withRxf { s.rxf with flags := fl }) = (onFrame w s).withRxf { s.rxf with flags := fl } := by
  have hfin : finBit { s.rxf with flags := fl } = finBit s.rxf := getLsbD_eq_of_and_eq (i := 0) h (by decide)
  have hsyn : synBit { s.rxf with flags := fl } = synBit s.rxf := getLsbD_eq_of_and_eq (i := 1) h (by decide)
  have hack : ackBit { s.rxf with flags := fl } = ackBit s.rxf := getLsbD_eq_of_and_eq (i := 3) h (by decide)
  cases w with
  | clientReply => exact ite_withRxf (Iff.of_eq (congrArg₂ (fun a b => a = true ∧ b = true) hsyn hack)) rfl rfl
  | serverListen => exact ite_withRxf (Bool.coe_iff_coe.2 hsyn) rfl rfl
  | serverThird => exact ite_withRxf (Bool.coe_iff_coe.2 hack) rfl rfl
  | senderAck =>
    have happly : applyAck s.rxf.ack (s.timerDisarm.withRxf { s.rxf with flags := fl }) =
        (applyAck s.rxf.ack s.timerDisarm).withRxf { s.rxf with flags := fl } := ite_withRxf Iff.rfl rfl rfl
    exact ite_withRxf (Bool.coe_iff_coe.2 hack)
      (congrArg (fun u : State => { u.emit (.ackReceived s.rxf.ack) with phase := .fill }) happly) rfl
  | clientClose => exact ite_withRxf (Bool.coe_iff_coe.2 hack) rfl rfl
  | receiver =>
    exact ite_withRxf (Bool.coe_iff_coe.2 hfin) rfl (ite_withRxf Iff.rfl rfl (ite_withRxf Iff.rfl rfl rfl))

/-- Two frames that agree on FIN, SYN, ACK and all fields but the flags are processed alike. -/
theorem receive_withRxf {s : State} {f : Frame} {fl : U16} (hw : waitOf s.lifecycle s.phase ≠ none)
    (h : fl &&& 0x000B = f.flags &&& 0x000B) (src : Addr) :
    receive { f with flags := fl } src s = (receive f src s).withRxf { f with flags := fl } := by
  obtain ⟨w, hw⟩ := Option.ne_none_iff_exists'.1 hw
  rw [receive_waiting hw, receive_waiting hw]
  exact onFrame_withRxf (s := s.takeFrame f src) w h

/-- The frame that is processed stays in RXF. -/
theorem receive_rxf {s : State} (hw : waitOf s.lifecycle s.phase ≠ none) (f : Frame) (src : Addr) :
    (receive f src s).rxf = f :=
  congrArg State.rxf (receive_withRxf (f := f) hw rfl src)

/-- Settles O58: `receive_withRxf`, as the frame is processed and in the engine's step. -/
theorem reservedFlagBitsIgnored : Obligations.ReservedFlagBitsIgnored := by
  unfold Obligations.ReservedFlagBitsIgnored
  refine ⟨fun s f src fl hw h => receive_withRxf hw h src, ?_⟩
  intro s f src fl b1 b2 q ht hw h h1 h2
  have hstep {b : Bytes} {g : Frame} (hb : codecDecode b = some g) : step { s with rxQueue := ⟨src, b⟩ :: q } =
      .next (receive g src { s.afterMove with rxQueue := ⟨src, b⟩ :: q }) :=
    step_takes_frame (s := { s with rxQueue := ⟨src, b⟩ :: q }) ht hw rfl hb
  refine ⟨_, hstep h1, receive_rxf (s := { s.afterMove with rxQueue := ⟨src, b1⟩ :: q }) hw f src, ?_⟩
  rw [hstep h2, receive_head (s := s.afterMove) hw ⟨src, b2⟩ ⟨src, b1⟩,
    receive_withRxf (s := { s.afterMove with rxQueue := ⟨src, b1⟩ :: q }) hw h]
  rfl

end Sys2Proof.Machine
end

section
/-! PROOFS. The frames the engine emits: every datagram of a step is a row of the table of spec/30_encoding.md R108. -/

namespace Sys2Proof.Machine

/-- The rows of spec/30_encoding.md R108, for a step from `s` to `t`. -/
inductive EmittedRow (s t : State) : Frame → Prop where
  | syn : EmittedRow s t synFrame
  | synack : EmittedRow s t (synackFrame t.rxf.seq s.params.advWindow)
  | ackControl : EmittedRow s t (ackControlFrame t.rxf.seq)
  | data (k : U17) (h1 : 1 ≤ k.toNat) (h2 : k.toNat ≤ s.total.toNat) (h3 : s.total.toNat ≤ 65535)
      (h4 : (chunkRead s.chunks k.toNat).length ≤ 992) :
      EmittedRow s t (dataFrame k s.negWindow (chunkRead s.chunks k.toNat))
  | ackData (h1 : 1 ≤ s.expected.toNat) (h2 : s.expected.toNat ≤ 65535) :
      EmittedRow s t (ackDataFrame s.expected s.params.advWindow)
  | fin : EmittedRow s t finFrame
  | finack : EmittedRow s t finackFrame

namespace EmittedRow
variable {s t : State} {f : Frame}

theorem payload_length_le (h : EmittedRow s t f) : f.payload.length ≤ 992 := by
  cases h with
  | data k _ _ _ h4 => exact h4
  | syn | synack | ackControl | ackData | fin | finack => exact Nat.zero_le 992

/-- The one row whose kind depends on more than its flags is DATA, whose sequence is its chunk number, from 1 on. -/
theorem kind_ne_other (h : EmittedRow s t f) : f.kind ≠ .other := by
  cases h with
  | data k h1 h2 h3 _ =>
    have hseq : low16 k ≠ 0 := fun h0 => by
      have hk := congrArg BitVec.toNat h0
      simp only [low16_toNat, BitVec.ofNat_eq_ofNat, BitVec.toNat_ofNat] at hk
      omega
    have hkind := (kind_eq_iff (f := dataFrame k s.negWindow (chunkRead s.chunks k.toNat)) (k := .data) rfl).2
      ⟨rfl, fun _ => hseq⟩
    rw [hkind]
    decide
  | syn | synack | ackControl | ackData | fin | finack => nofun

end EmittedRow

/-- A step whose new outputs hold one datagram, a row of the table, to PEER. -/
theorem emits_row {s t : State} {new : List Output} {f : Frame} (hout : t.out = s.out ++ new)
    (htx : txHistory new = [(t.peer, f.bytes)]) (hrow : EmittedRow s t f) :
    ∃ new, t.out = s.out ++ new ∧ ∀ x ∈ txHistory new, ∃ f, x = (t.peer, f.bytes) ∧ EmittedRow s t f := by
  refine ⟨new, hout, fun x hx => ⟨f, ?_, hrow⟩⟩
  rwa [htx, List.mem_singleton] at hx

/-- What a step hands to the TX port goes to PEER and is a row of the table. -/
theorem step_tx {s t : State} (hs : s.Inv) (h : step s = .next t) :
    ∃ new, t.out = s.out ++ new ∧ ∀ x ∈ txHistory new, ∃ f, x = (t.peer, f.bytes) ∧ EmittedRow s t f := by
  cases step_outcome h <;> rename_i ht <;> subst ht
  case stays | accept | sendAll | recvAll | ignored | windowFull | resendDone | arrival | strayExpiry | reset |
      seamWritten | chunkStored | chunksFilled | clockMoved =>
    exact ⟨[], (List.append_nil _).symm, nofun⟩
  case refused | codec | serverEstablished | clientClosed | sendDone | handshakeError | shortHeader | overlong |
      handshakeTimeout | socketError => exact ⟨[.result _], rfl, nofun⟩
  case ackMoves | ackStale | finReceived | dropped | outOfOrder | goBackN => exact ⟨[.trace _], rfl, nofun⟩
  case teardownTimeout => exact ⟨[.trace _, .result _], List.append_assoc .., nofun⟩
  case openConn => exact emits_row rfl rfl .syn
  case synAnswered => exact emits_row rfl rfl .synack
  case clientEstablished => exact emits_row (List.append_assoc ..) rfl .ackControl
  case close => exact emits_row rfl rfl .fin
  case finackSent => exact emits_row (List.append_assoc ..) rfl .finack
  case sentNew hp h1 h2 h3 h4 =>
    have hsender := hs.sender (by simp [hp, sending])
    exact emits_row (List.append_assoc ..) rfl
      (.data s.nextSeq (hsender.base_pos.trans hsender.base_le_next) h3 hsender.total_le h4)
  case resent hp h1 h4 =>
    have hsender := hs.sender (by simp [hp, sending])
    have hle : s.rtx.toNat ≤ s.total.toNat := Nat.le_of_lt_succ (h1.trans_le hsender.next_le_total)
    exact emits_row (List.append_assoc ..) rfl
      (.data s.rtx (hsender.base_pos.trans (hsender.rtx_ge hp)) hle hsender.total_le h4)
  case delivered d q f hq hd hf hr hl hp he =>
    have hseq := f.seq.isLt
    exact emits_row (new := [.sink f.payload, .tx s.peer (ackDataFrame s.expected s.params.advWindow).bytes,
        .trace (.delivered f.seq f.payload.length)]) (by simp [recvAccept]) rfl
      (.ackData (hs.receiver hp).1 (by omega))

/-- Settles O55: `step_tx`, and the length and kind of a row's frame. -/
theorem emittedFramesAreCanonical : Obligations.EmittedFramesAreCanonical := by
  unfold Obligations.EmittedFramesAreCanonical
  intro s t hs h
  obtain ⟨new, hout, hrow⟩ := step_tx hs h
  refine ⟨new, hout, fun x hx => ?_⟩
  obtain ⟨f, rfl, hf⟩ := hrow x hx
  have hlen := frame_bytes_length f
  have hpayload := hf.payload_length_le
  refine ⟨rfl, hlen.symm ▸ Nat.le_add_right 8 _, hlen.trans_le (Nat.add_le_add_left hpayload 8), f, rfl,
    hf.kind_ne_other, ?_⟩
  cases hf with
  | syn => exact .inl rfl
  | synack => exact .inr (.inl rfl)
  | ackControl => exact .inr (.inr (.inl rfl))
  | data k h1 h2 => exact .inr (.inr (.inr (.inl ⟨k.toNat, h1, h2, by rw [← low16_ofNat]; rfl⟩)))
  | ackData h1 h2 => exact .inr (.inr (.inr (.inr (.inl ⟨h1, h2, by rw [← low16_ofNat]; rfl⟩))))
  | fin => exact .inr (.inr (.inr (.inr (.inr (.inl rfl)))))
  | finack => exact .inr (.inr (.inr (.inr (.inr (.inr rfl)))))

end Sys2Proof.Machine
end

section
/-! PROOFS. The Frame Codec: what `encode` and `decode` answer, that they are inverse to each other within the payload
bound, and the commands ENCODE and DECODE (spec/40_codec.md). -/

namespace Sys2Proof.Machine

/-! ## The encoder -/

theorem codecEncode_of_fits {f : Frame} (h : f.payload.length ≤ 992) : codecEncode f = some f.bytes :=
  if_neg (Nat.not_lt.2 h)

theorem codecEncode_of_overlong {f : Frame} (h : 992 < f.payload.length) : codecEncode f = none := if_pos h

theorem codecEncode_eq_none_iff {f : Frame} : codecEncode f = none ↔ 992 < f.payload.length := by
  simp [codecEncode]

theorem codecEncode_eq_some_iff {f : Frame} {b : Bytes} :
    codecEncode f = some b ↔ f.payload.length ≤ 992 ∧ f.bytes = b := by
  simp [codecEncode]

/-- Settles O2: an encoded frame is its bytes, and its payload is within the bound. -/
theorem encodeLayoutAndLength : Obligations.EncodeLayoutAndLength := by
  unfold Obligations.EncodeLayoutAndLength
  refine fun f => ⟨codecEncode_eq_none_iff, fun b h => ?_⟩
  obtain ⟨hfits, rfl⟩ := codecEncode_eq_some_iff.1 h
  have hlen := frame_bytes_length f
  exact ⟨rfl, hlen, by omega, by omega⟩

/-! ## The decoder -/

theorem unbe16_toNat (b0 b1 : Byte) : (unbe16 b0 b1).toNat = 256 * b0.toNat + b1.toNat := by
  have h0 := b0.isLt
  have h1 := b1.isLt
  simp only [unbe16, BitVec.toNat_ofNat]
  omega

theorem codecDecode_eq_none_iff {b : Bytes} : codecDecode b = none ↔ b.length < 8 := by
  refine ⟨fun hnone => ?_, codecDecode_of_short⟩
  by_contra hlong
  obtain ⟨f, hf⟩ := codecDecode_of_header (Nat.not_lt.1 hlong)
  simp [hnone] at hf

/-- Settles O3: `codecDecode_eq_none_iff`, and `unbe16_toNat` for each field. -/
theorem decodeFieldsAndFailure : Obligations.DecodeFieldsAndFailure := by
  unfold Obligations.DecodeFieldsAndFailure
  refine ⟨fun b => codecDecode_eq_none_iff, fun b0 b1 b2 b3 b4 b5 b6 b7 p => ⟨_, rfl, ?_⟩⟩
  exact ⟨unbe16_toNat b0 b1, unbe16_toNat b2 b3, unbe16_toNat b4 b5, unbe16_toNat b6 b7, rfl⟩

/-! ## The two laws -/

/-- Settles O1: a frame within the payload bound encodes to its bytes, which decode to it. -/
theorem codecRoundTrip : Obligations.CodecRoundTrip := by
  unfold Obligations.CodecRoundTrip
  exact fun f h => ⟨f.bytes, codecEncode_of_fits h, codecDecode_bytes f⟩

/-- A string of at least 8 bytes is the bytes of the frame it decodes to. -/
theorem exists_frame_of_header {b : Bytes} (h : 8 ≤ b.length) : ∃ f, codecDecode b = some f ∧ f.bytes = b := by
  obtain ⟨f, hf⟩ := codecDecode_of_header h
  exact ⟨f, hf, bytes_of_codecDecode hf⟩

/-- Settles O4: a byte string is the bytes of its frame, so the length of one fixes that of the other; and a frame's
bytes are the one string that decodes to it. -/
theorem encodeInvertsDecode : Obligations.EncodeInvertsDecode := by
  unfold Obligations.EncodeInvertsDecode
  refine ⟨fun b hmin hmax => ?inverse, fun b hlong => ?overlong, fun f hfits => ?bijection⟩
  case inverse =>
    obtain ⟨f, hf, rfl⟩ := exists_frame_of_header hmin
    have hfits : f.payload.length ≤ 992 := by rw [frame_bytes_length] at hmax; omega
    exact ⟨f, hf, codecEncode_of_fits hfits, hfits⟩
  case overlong =>
    obtain ⟨f, hf, rfl⟩ := exists_frame_of_header (by omega : 8 ≤ b.length)
    exact ⟨f, hf, codecEncode_of_overlong (by rw [frame_bytes_length] at hlong; omega)⟩
  case bijection =>
    have hlen := frame_bytes_length f
    exact ⟨f.bytes, by omega, by omega, codecDecode_bytes f, fun b' hb' => (bytes_of_codecDecode hb').symm⟩

/-! ## The commands ENCODE and DECODE -/

section
variable {f : Frame} {b : Bytes} {s : State}

theorem exec_encode_ok (hp : s.phase = .none) (h : codecEncode f = some b) :
    exec (.encode f) s = .next (s.post (.okBytes b)) := by
  simp [exec, execEncode, hp, h]

theorem exec_encode_invalidPayload (hp : s.phase = .none) (h : codecEncode f = none) :
    exec (.encode f) s = .next (s.post (.err .invalidPayload)) := by
  simp [exec, execEncode, hp, h]

theorem exec_encode_refused (hp : s.phase ≠ .none) : exec (.encode f) s = .next (refuse s) := by
  simp [exec, execEncode, hp]

theorem exec_decode_ok (hp : s.phase = .none) (h : codecDecode b = some f) :
    exec (.decode b) s = .next (s.post (.okFrame f)) := by
  simp [exec, execDecode, hp, h]

theorem exec_decode_shortHeader (hp : s.phase = .none) (h : codecDecode b = none) :
    exec (.decode b) s = .next (s.post (.err .shortHeader)) := by
  simp [exec, execDecode, hp, h]

theorem exec_decode_refused (hp : s.phase ≠ .none) : exec (.decode b) s = .next (refuse s) := by
  simp [exec, execDecode, hp]

end

/-- Settles O11: by the payload's length, and by PHASE. -/
theorem encodeCommandPostsBytes : Obligations.EncodeCommandPostsBytes := by
  unfold Obligations.EncodeCommandPostsBytes
  intro f s
  exact ⟨fun hp h => exec_encode_ok hp (codecEncode_of_fits h),
    fun hp h => exec_encode_invalidPayload hp (codecEncode_of_overlong h), exec_encode_refused⟩

/-- Settles O12: by what the bytes decode to, and by PHASE. -/
theorem decodeCommandPostsFrame : Obligations.DecodeCommandPostsFrame := by
  unfold Obligations.DecodeCommandPostsFrame
  intro b s
  exact ⟨fun f hp h => exec_decode_ok hp h,
    fun hp h => exec_decode_shortHeader hp (codecDecode_of_short h), exec_decode_refused⟩

end Sys2Proof.Machine
end

section
/-! PROOFS. The Connection Lifecycle (spec/41_lifecycle.md): OPEN, ACCEPT and CLOSE, the frames and expiries of the
handshake and the close, and how STATE moves over every step. -/

namespace Sys2Proof.Machine

/-! ## The commands OPEN, ACCEPT and CLOSE -/

section
variable {peer : Addr} {w : U16} {s : State}

theorem exec_openConn_ok (hp : s.phase = .none) (hl : s.lifecycle = .idle) (hr : s.role = .none) :
    exec (.openConn peer w) s = .next
      ((({ s with role := .client, peer := peer, cfgWindow := w }).tx peer synFrame).goto .synSent .hsWait).timerArm := by
  simp [exec, execOpenConn, hp, hl, hr]

theorem exec_openConn_refused (h : s.phase ≠ .none ∨ s.lifecycle ≠ .idle ∨ s.role ≠ .none) :
    exec (.openConn peer w) s = .next (refuse s) :=
  congrArg Host.Outcome.next (if_neg (by simpa only [not_and_or] using h))

theorem exec_accept_ok (hp : s.phase = .none) (hl : s.lifecycle = .idle) (hr : s.role = .none) :
    exec .accept s = .next { s with role := .server, phase := .listen } := by
  simp [exec, execAccept, hp, hl, hr]

theorem exec_accept_refused (h : s.phase ≠ .none ∨ s.lifecycle ≠ .idle ∨ s.role ≠ .none) :
    exec .accept s = .next (refuse s) :=
  congrArg Host.Outcome.next (if_neg (by simpa only [not_and_or] using h))

theorem exec_close_ok (hp : s.phase = .none) (hl : s.lifecycle = .established) (hr : s.role = .client) :
    exec .close s = .next ((s.tx s.peer finFrame).goto .finSent .finWait).timerArm := by
  simp [exec, execClose, hp, hl, hr]

theorem exec_close_refused (h : s.phase ≠ .none ∨ s.lifecycle ≠ .established ∨ s.role ≠ .client) :
    exec .close s = .next (refuse s) :=
  congrArg Host.Outcome.next (if_neg (by simpa only [not_and_or] using h))

/-- LISTEN has no timer and no step of its own while nothing arrives (spec/60_exceptions.md R227). -/
theorem step_listen_blocked (hl : s.lifecycle = .idle) (hp : s.phase = .listen) (hq : s.rxQueue = [])
    (hm : s.moves = []) : step s = .next s := by
  have hw : waitOf s.lifecycle s.phase ≠ none := by rw [hl, hp]; exact Option.some_ne_none _
  rw [step_blocked (.inl hm) hw hq, afterMove_of_nil hm]

end

/-- Settles O14: the two cases of OPEN. -/
theorem openSendsSyn : Obligations.OpenSendsSyn := by
  unfold Obligations.OpenSendsSyn
  exact fun peer w s => ⟨exec_openConn_ok, exec_openConn_refused⟩

/-- Settles O15: the two cases of ACCEPT, and the blocked step of LISTEN. -/
theorem acceptListens : Obligations.AcceptListens := by
  unfold Obligations.AcceptListens
  refine fun s => ⟨fun hp hl hr => ⟨exec_accept_ok hp hl hr, fun t ht hq hm => ?_⟩, exec_accept_refused⟩
  cases (exec_accept_ok hp hl hr).symm.trans ht
  exact step_listen_blocked hl rfl hq hm

/-- Settles O18: the two cases of CLOSE. -/
theorem closeSendsFin : Obligations.CloseSendsFin := by
  unfold Obligations.CloseSendsFin
  exact fun s => ⟨exec_close_ok, exec_close_refused⟩

/-! ## Frames in the handshake and the close -/

/-- A waiting engine's step answers what the rule of its wait makes of the state after the receive prelude
(spec/41_lifecycle.md R160), whatever the kind of the frame at the head of the RX queue. -/
theorem step_onFrame {s t : State} {d : Datagram} {q : List Datagram} {f : Frame} {w : Wait} (ht : enginesTurn s)
    (hw : waitOf s.lifecycle s.phase = some w) (hq : s.rxQueue = d :: q) (hd : codecDecode d.bytes = some f)
    (h : onFrame w { s with moves := s.moves.tail, rxQueue := q, rxf := f, rxfSrc := d.src } = t) :
    step s = .next t := by
  rw [step_takes_frame ht (Option.ne_none_iff_exists'.2 ⟨w, hw⟩) hq hd, receive_waiting (s := s.afterMove) hw,
    State.takeFrame, afterMove_rxQueue, hq, ← h]
  rfl

/-- The same of the instruction that a frame of one of the six kinds decodes to. -/
theorem exec_onFrame {s t : State} {i : Instr} {w : Wait} {f : Frame} {src : Addr} (hi : frameInstr f src = .ok i)
    (hw : waitOf s.lifecycle s.phase = some w)
    (h : onFrame w { s with rxQueue := s.rxQueue.tail, rxf := f, rxfSrc := src } = t) : exec i s = .next t := by
  rw [exec_frameInstr hi, receive_waiting hw, State.takeFrame, List.drop_one, h]

section
variable {s : State}

/-- R142 for any state after the receive prelude, written out. -/
theorem onClientReply_establishes {w : U16} (hsyn : synBit s.rxf = true) (hack : ackBit s.rxf = true)
    (hw : w.toNat = min s.cfgWindow.toNat s.rxf.window.toNat) :
    onClientReply s = { s with
      timerArmed := false, peerWindow := s.rxf.window, negWindow := w,
      txf := ackControlFrame s.rxf.seq, txfDst := s.peer,
      out := s.out ++ [.tx s.peer (ackControlFrame s.rxf.seq).bytes, .result (.okWindow w)],
      lifecycle := .established, phase := .none } := by
  rw [onClientReply_synack hsyn hack, min16_eq hw, List.append_cons]
  rfl

/-- The fatal action in a handshake wait leaves ELAPSED alone and posts the bare error (spec/60_exceptions.md R212). -/
theorem raiseFatal_handshake (e : ErrCode) (h : s.phase = .hsWait ∨ s.phase = .listen) :
    raiseFatal e s = { s with
      err := e, timerArmed := false, lifecycle := .closed, phase := .none, out := s.out ++ [.result (.err e)] } := by
  rcases h with h | h <;> simp only [raiseFatal, h] <;> rfl

end

/-- Settles O19: `onServerListen_syn`, for the instruction and in the engine's step. -/
theorem serverAnswersSyn : Obligations.ServerAnswersSyn := by
  unfold Obligations.ServerAnswersSyn
  constructor
  · intro a s hl hp
    exact exec_onFrame rfl (congrArg₂ waitOf hl hp) (onServerListen_syn (synBit_syn a))
  · intro s d q f ht hl hp hq hd hsyn
    exact step_onFrame ht (congrArg₂ waitOf hl hp) hq hd (onServerListen_syn hsyn)

/-- Settles O20: `onClientReply_establishes`, for the instruction and in the engine's step. -/
theorem clientEstablishesOnSynack : Obligations.ClientEstablishesOnSynack := by
  unfold Obligations.ClientEstablishesOnSynack
  constructor
  · intro a s w hl hp hmin
    exact exec_onFrame rfl (congrArg₂ waitOf hl hp)
      (onClientReply_establishes (synBit_synack a) (ackBit_synack a) hmin)
  · intro s d q f w ht hl hp hq hd hsyn hack hmin
    exact step_onFrame ht (congrArg₂ waitOf hl hp) hq hd (onClientReply_establishes hsyn hack hmin)

/-- Settles O21: `onServerThird_ack`, for the instruction and in the engine's step. -/
theorem serverEstablishesOnAck : Obligations.ServerEstablishesOnAck := by
  unfold Obligations.ServerEstablishesOnAck
  constructor
  · intro a s hl hp
    exact exec_onFrame rfl (congrArg₂ waitOf hl hp) (onServerThird_ack (ackBit_ack a))
  · intro s d q f ht hl hp hq hd hack
    exact step_onFrame ht (congrArg₂ waitOf hl hp) hq hd (onServerThird_ack hack)

/-- Settles O22: in each of the three handshake waits the rule's other case is the fatal action. -/
theorem wrongHandshakeFrameIsFatal : Obligations.WrongHandshakeFrameIsFatal := by
  unfold Obligations.WrongHandshakeFrameIsFatal
  rintro s d q f ht hq hd (⟨hl, hp, hbits⟩ | ⟨hl, hp, hsyn⟩ | ⟨hl, hp, hack⟩)
  · have hmissing : ¬ (synBit f = true ∧ ackBit f = true) := by
      simpa only [synBit, ackBit, not_and_or, Bool.not_eq_true] using hbits
    exact step_onFrame ht (congrArg₂ waitOf hl hp) hq hd
      (Eq.trans (onClientReply_other hmissing) (raiseFatal_handshake _ (.inl hp)))
  · exact step_onFrame ht (congrArg₂ waitOf hl hp) hq hd
      (Eq.trans (onServerListen_other hsyn) (raiseFatal_handshake _ (.inr hp)))
  · exact step_onFrame ht (congrArg₂ waitOf hl hp) hq hd
      (Eq.trans (onServerThird_other hack) (raiseFatal_handshake _ (.inl hp)))

/-- Settles O23: `onClientClose_ack`, for the two instructions and in the engine's step. -/
theorem clientClosesOnAck : Obligations.ClientClosesOnAck := by
  unfold Obligations.ClientClosesOnAck
  constructor
  · intro a s hl hp
    exact ⟨exec_onFrame rfl (congrArg₂ waitOf hl hp) (onClientClose_ack (ackBit_ack a)),
      exec_onFrame rfl (congrArg₂ waitOf hl hp) (onClientClose_ack (ackBit_finack a))⟩
  · intro s d q f ht hl hp hq hd hack
    exact step_onFrame ht (congrArg₂ waitOf hl hp) hq hd (onClientClose_ack hack)

/-- Settles O24: in both waits the rule's other case is the state after the receive prelude. -/
theorem frameWithoutAckDiscarded : Obligations.FrameWithoutAckDiscarded := by
  unfold Obligations.FrameWithoutAckDiscarded
  rintro s d q f ht (⟨hl, hp⟩ | ⟨hl, hp⟩) hq hd hack
  · exact step_onFrame ht (congrArg₂ waitOf hl hp) hq hd (onClientClose_other hack)
  · exact step_onFrame ht (congrArg₂ waitOf hl hp) hq hd (onSenderAck_other hack)

/-! ## FIN_RCVD and the expiries -/

theorem internalStep_finRcvd {s : State} (hl : s.lifecycle = .finRcvd) (hp : s.phase = .recv) :
    internalStep s = sendFinack s := by
  simp only [internalStep, hl, hp]

/-- Settles O25: the engine's own step in FIN_RCVD is `sendFinack`. -/
theorem finackEndsReceiver : Obligations.FinackEndsReceiver := by
  unfold Obligations.FinackEndsReceiver
  intro s ht hl hp
  rw [step_internal ht (by rw [hl, hp]; rfl), internalStep_finRcvd (s := s.afterMove) hl hp, List.append_cons]
  rfl

/-- Settles O42: the expiry in the client's handshake is the fatal action. -/
theorem handshakeTimeoutIsFatal : Obligations.HandshakeTimeoutIsFatal := by
  unfold Obligations.HandshakeTimeoutIsFatal
  intro s ms hm ha hl hp
  have hstep : step s = .next (timerExpiry s.afterMove) := step_cons hm
  rw [hstep, timerExpiry_handshake (s := s.afterMove) ha hl hp, raiseFatal_handshake (s := s.afterMove) _ (.inl hp),
    afterMove_eq hm]

/-- Settles O43: the expiry in the client's close is `teardownExpiry`. -/
theorem teardownTimeoutCloses : Obligations.TeardownTimeoutCloses := by
  unfold Obligations.TeardownTimeoutCloses
  intro s ms hm ha hl hp
  have hstep : step s = .next (timerExpiry s.afterMove) := step_cons hm
  rw [hstep, timerExpiry_close (s := s.afterMove) ha hl hp, afterMove_eq hm, List.append_cons]
  rfl

/-! ## STATE over every step -/

theorem stateMoves_refl (byReset : Bool) (l : Lifecycle) : stateMoves byReset l l = true := by
  cases l <;> cases byReset <;> rfl

theorem stateMoves_closed (byReset : Bool) (l : Lifecycle) : stateMoves byReset l .closed = true := by
  cases l <;> rfl

/-- A step that is no reset follows an arrow of spec/41_lifecycle.md R158, or leaves STATE as it is. -/
theorem step_stateMoves {s t : State} (h : step s = .next t) (hr : ¬ resetsNext s) :
    stateMoves false s.lifecycle t.lifecycle = true := by
  cases step_outcome h <;> rename_i ht <;> subst ht
  case reset hm => exact absurd (List.head?_eq_some_iff.1 hm) hr
  -- the two chains of R158
  case openConn hl _ => rw [hl]; rfl
  case clientEstablished hl _ => rw [hl]; rfl
  case synAnswered hl _ => rw [hl]; rfl
  case serverEstablished hl _ => rw [hl]; rfl
  case close hl _ => rw [hl]; rfl
  case finReceived hl _ => rw [hl]; rfl
  -- the end of a Session, by a rule or by the fatal action
  case clientClosed | teardownTimeout | finackSent | handshakeError | shortHeader | overlong | handshakeTimeout |
      socketError => exact stateMoves_closed false _
  all_goals exact stateMoves_refl false _

/-- Settles O51: `step_stateMoves`, and the reset input for the last arrow. -/
theorem stateMovesOnlyByTable : Obligations.StateMovesOnlyByTable := by
  unfold Obligations.StateMovesOnlyByTable
  refine fun s t h => ⟨step_stateMoves h, fun ⟨ms, hm⟩ => ?_⟩
  rw [step_cons hm] at h
  cases h
  rfl

/-! ## CLOSED -/

/-- All that a step other than reset does in a Session that is over: a result is posted, a datagram arrives, the host
writes chunk memory or moves its time source, or nothing but the move is taken. -/
theorem step_sessionOver {s t : State} (hs : s.Inv) (ho : sessionOver s) (hr : ¬ resetsNext s)
    (h : step s = .next t) :
    t = s.afterMove ∨ (∃ r, t = s.afterMove.post r) ∨ (∃ src b, t = s.afterMove.deliver src b) ∨
      (∃ m, t = { s.afterMove with chunks := m }) ∨ ∃ c, t = { s.afterMove with now := c } := by
  obtain ⟨hl, hp⟩ := ho
  have ha : s.timerArmed = false := by rw [hs.timer, hp, timedWait_none]
  cases step_outcome h
  case stays ht => exact .inl ht
  case refused ht => exact .inr (.inl ⟨_, ht⟩)
  case codec ht => exact .inr (.inl ⟨_, ht⟩)
  case arrival ht => exact .inr (.inr (.inl ⟨_, _, ht⟩))
  case chunkStored ht => exact .inr (.inr (.inr (.inl ⟨_, ht⟩)))
  case chunksFilled ht => exact .inr (.inr (.inr (.inl ⟨_, ht⟩)))
  case clockMoved ht => exact .inr (.inr (.inr (.inr ⟨_, ht⟩)))
  case reset hm _ => exact absurd (List.head?_eq_some_iff.1 hm) hr
  -- the guard of every other case asks for another STATE, another PHASE or an armed timer
  all_goals simp_all

theorem deliver_appends (s : State) (src : Addr) (b : Bytes) :
    ∃ q, s.deliver src b = { s with rxQueue := s.rxQueue ++ q } := by
  cases hf : queueFull s.params s.rxQueue with
  | true => exact ⟨[], by rw [deliver_full hf, List.append_nil]⟩
  | false => exact ⟨_, deliver_room hf src b⟩

/-- Settles O52: each case of `step_sessionOver` is of the stated form. -/
theorem closedIsTerminal : Obligations.ClosedIsTerminal := by
  unfold Obligations.ClosedIsTerminal
  intro s t hs ho hr h
  rcases step_sessionOver hs ho hr h with rfl | ⟨r, rfl⟩ | ⟨src, b, rfl⟩ | ⟨m, rfl⟩ | ⟨c, rfl⟩
  · exact ⟨[], [], by simp [State.afterMove]⟩
  · exact ⟨[r], [], by simp [State.afterMove, State.post]⟩
  · obtain ⟨q, hq⟩ := deliver_appends s.afterMove src b
    exact ⟨[], q, by rw [hq]; simp [State.afterMove]⟩
  · exact ⟨[], [], by simp [State.afterMove]⟩
  · exact ⟨[], [], by simp [State.afterMove]⟩

end Sys2Proof.Machine
end

section
/-! PROOFS. The Sender ARQ Engine (spec/42_sender_arq.md): SEND_ALL, the steps of FILL, WAIT and RETX one by one, a fill
and a retransmission over the whole window, and the order in which sequence numbers first appear on the TX port. -/

namespace Sys2Proof.Machine

/-! ## The start of SEND_ALL -/

section
variable {total : Nat} {s : State}

theorem exec_sendAll_ok (hp : s.phase = .none) (hl : s.lifecycle = .established) (hr : s.role = .client)
    (htotal : total ≤ 65535) (hw : 1 ≤ s.negWindow.toNat ∨ total = 0) :
    exec (.sendAll total) s = .next { s with
      total := BitVec.ofNat 17 total, base := 1, nextSeq := 1, bytes := 0, t0 := s.now, phase := .fill } :=
  congrArg Host.Outcome.next (if_pos ⟨hp, hl, hr, htotal, hw⟩)

theorem exec_sendAll_refused (h : ¬ (s.phase = .none ∧ s.lifecycle = .established ∧ s.role = .client ∧
    total ≤ 65535 ∧ (1 ≤ s.negWindow.toNat ∨ total = 0))) : exec (.sendAll total) s = .next (refuse s) :=
  congrArg Host.Outcome.next (if_neg h)

end

/-- Settles O16: the two cases of SEND_ALL. -/
theorem sendAllStarts : Obligations.SendAllStarts := by
  unfold Obligations.SendAllStarts
  refine fun total s => ⟨exec_sendAll_ok, fun h => exec_sendAll_refused ?_⟩
  rintro ⟨hp, hl, hr, htotal, hw⟩
  rcases h with h | h | h | h | ⟨h, h0⟩
  · exact h hp
  · exact h hl
  · exact h hr
  · exact Nat.not_lt.2 htotal h
  · exact hw.elim (by simp [h]) h0

/-! ## The steps of FILL and RETX -/

/-- The state after the DATA frame of chunk `k` went to PEER, with its trace event. -/
def State.sendData (k : U17) (e : TraceEvent) (s : State) : State :=
  (s.tx s.peer (dataFrame k s.negWindow (chunkRead s.chunks k.toNat))).emit e

theorem sendData_out (k : U17) (e : TraceEvent) (s : State) : (s.sendData k e).out =
    s.out ++ [.tx s.peer (dataFrame k s.negWindow (chunkRead s.chunks k.toNat)).bytes, .trace e] :=
  List.append_assoc ..

section
variable {s : State} (ht : enginesTurn s)
include ht

theorem step_fill (hp : s.phase = .fill) : step s = .next (fillStep s.afterMove) := by
  rw [step_internal ht (by rw [hp, waitOf_fill]), internalStep_fill (s := s.afterMove) hp]

theorem step_retx (hp : s.phase = .retx) : step s = .next (retxStep s.afterMove) := by
  rw [step_internal ht (by rw [hp, waitOf_retx]), internalStep_retx (s := s.afterMove) hp]

theorem step_fill_done (hp : s.phase = .fill) (h : s.total.toNat < s.base.toNat) :
    step s = .next (sendDone s.afterMove) := by
  rw [step_fill ht hp, fillStep_done (s := s.afterMove) h]

theorem step_fill_send (hp : s.phase = .fill) (h1 : s.base.toNat ≤ s.total.toNat)
    (h2 : s.nextSeq.toNat < s.base.toNat + s.negWindow.toNat) (h3 : s.nextSeq.toNat ≤ s.total.toNat) :
    step s = .next (sendNew s.afterMove) := by
  rw [step_fill ht hp, fillStep_send (s := s.afterMove) h1 h2 h3]

theorem step_fill_sent (hp : s.phase = .fill) (h1 : s.base.toNat ≤ s.total.toNat)
    (h2 : s.nextSeq.toNat < s.base.toNat + s.negWindow.toNat) (h3 : s.nextSeq.toNat ≤ s.total.toNat)
    (h4 : (chunkRead s.chunks s.nextSeq.toNat).length ≤ 992) :
    step s = .next { s.afterMove.sendData s.nextSeq (.sent (low16 s.nextSeq) s.base (s.nextSeq + 1)) with
      nextSeq := s.nextSeq + 1 } := by
  rw [step_fill_send ht hp h1 h2 h3, sendNew_ok (s := s.afterMove) h4]
  rfl

theorem step_fill_wait (hp : s.phase = .fill) (h1 : s.base.toNat ≤ s.total.toNat)
    (h2 : s.base.toNat + s.negWindow.toNat ≤ s.nextSeq.toNat ∨ s.total.toNat < s.nextSeq.toNat) :
    step s = .next (enterWait s.afterMove) := by
  rw [step_fill ht hp, fillStep_wait (s := s.afterMove) h1 h2]

theorem step_retx_more (hp : s.phase = .retx) (h : s.rtx.toNat < s.nextSeq.toNat) :
    step s = .next (resend s.afterMove) := by
  rw [step_retx ht hp, retxStep_more (s := s.afterMove) h]

theorem step_retx_resent (hp : s.phase = .retx) (h : s.rtx.toNat < s.nextSeq.toNat)
    (h4 : (chunkRead s.chunks s.rtx.toNat).length ≤ 992) :
    step s = .next { s.afterMove.sendData s.rtx (.retransmitted (low16 s.rtx) s.base s.nextSeq) with
      rtx := s.rtx + 1 } := by
  rw [step_retx_more ht hp h, resend_ok (s := s.afterMove) h4]
  rfl

theorem step_retx_end (hp : s.phase = .retx) (h : s.nextSeq.toNat ≤ s.rtx.toNat) :
    step s = .next (enterWait s.afterMove) := by
  rw [step_retx ht hp, retxStep_end (s := s.afterMove) h]

end

/-- Settles O27: the three steps of FILL. -/
theorem fillDispatch : Obligations.FillDispatch := by
  unfold Obligations.FillDispatch
  refine fun s ht hp => ⟨step_fill_done ht hp, fun h1 h2 h3 h4 => ?sent, step_fill_wait ht hp⟩
  rw [step_fill_sent ht hp h1 h2 h3 h4, List.append_cons]
  rfl

/-- Settles O29: the expiry in WAIT, and the two steps of RETX. -/
theorem goBackNRound : Obligations.GoBackNRound := by
  unfold Obligations.GoBackNRound
  refine ⟨fun s ms hm hp ha => ?expiry, fun s ht hp h h4 => ?resent, fun s ht hp h => step_retx_end ht hp h⟩
  case expiry =>
    have hstep : step s = .next (timerExpiry s.afterMove) := step_cons hm
    rw [hstep, timerExpiry_wait (s := s.afterMove) ha hp, afterMove_eq hm]
    rfl
  case resent =>
    rw [step_retx_resent ht hp h h4, List.append_cons]
    rfl

/-! ## The over-long chunk -/

/-- The fatal action in FILL and in RETX writes ELAPSED and posts the partial progress (spec/42_sender_arq.md R184,
spec/60_exceptions.md R212). -/
theorem raiseFatal_sending {s : State} (e : ErrCode) (h : s.phase = .fill ∨ s.phase = .retx) :
    raiseFatal e s = { s with
      err := e, timerArmed := false, elapsed := s.params.minus s.now s.t0, lifecycle := .closed, phase := .none,
      out := s.out ++ [.result (.errSend e ⟨s.bytes, s.params.minus s.now s.t0⟩ (s.base.toNat - 1))] } := by
  rcases h with h | h <;> simp only [raiseFatal, h] <;> rfl

/-- Settles O30: the chunk is the one that FILL, or RETX, reads for its next frame. -/
theorem overlongChunkIsFatal : Obligations.OverlongChunkIsFatal := by
  unfold Obligations.OverlongChunkIsFatal
  rintro s k ht (⟨hp, rfl, h1, h2, h3⟩ | ⟨hp, rfl, h⟩) hlong
  · rw [step_fill_send ht hp h1 h2 h3, sendNew_overlong (s := s.afterMove) hlong,
      raiseFatal_sending (s := s.afterMove) _ (.inl hp)]
    rfl
  · rw [step_retx_more ht hp h, resend_overlong (s := s.afterMove) hlong,
      raiseFatal_sending (s := s.afterMove) _ (.inr hp)]
    rfl

/-! ## The acknowledgment -/

section
variable {s : State} (hack : ackBit s.rxf = true)
include hack

theorem onSenderAck_moves (h1 : s.base.toNat ≤ s.rxf.ack.toNat) (h2 : s.rxf.ack.toNat < s.nextSeq.toNat) :
    onSenderAck s = { s with
      timerArmed := false, bytes := s.bytes + BitVec.ofNat 32 (chunkBytes s.chunks s.base.toNat s.rxf.ack.toNat),
      base := BitVec.ofNat 17 (s.rxf.ack.toNat + 1), out := s.out ++ [.trace (.ackReceived s.rxf.ack)],
      phase := .fill } := by
  rw [onSenderAck_ack hack, applyAck_moves (s := s.timerDisarm) h1 h2, zext17_succ]
  rfl

theorem onSenderAck_stale (h : s.rxf.ack.toNat < s.base.toNat ∨ s.nextSeq.toNat ≤ s.rxf.ack.toNat) :
    onSenderAck s = { s with
      timerArmed := false, out := s.out ++ [.trace (.ackReceived s.rxf.ack)], phase := .fill } := by
  rw [onSenderAck_ack hack, applyAck_stale (s := s.timerDisarm) h]
  rfl

end

/-- Settles O28: `onSenderAck_moves` and `onSenderAck_stale`, for the instruction and in the engine's step. -/
theorem cumulativeAck : Obligations.CumulativeAck := by
  unfold Obligations.CumulativeAck
  constructor
  · intro a s hl hp
    exact ⟨fun h1 h2 => exec_onFrame rfl (congrArg₂ waitOf hl hp) (onSenderAck_moves (ackBit_ack a) h1 h2),
      fun h => exec_onFrame rfl (congrArg₂ waitOf hl hp) (onSenderAck_stale (ackBit_ack a) h)⟩
  · intro s d q f ht hl hp hq hd hack
    exact ⟨fun h1 h2 => step_onFrame ht (congrArg₂ waitOf hl hp) hq hd (onSenderAck_moves hack h1 h2),
      fun h => step_onFrame ht (congrArg₂ waitOf hl hp) hq hd (onSenderAck_stale hack h)⟩

/-! ## Runs of the engine alone -/

theorem run_cons {n : Nat} {s t : State} (h : step s = .next t) :
    Host.Core.run Sys2Proof.core (n + 1) s = Host.Core.run Sys2Proof.core n t := by
  have hstep : Sys2Proof.core.step s = .next t := h
  simp only [Host.Core.run, hstep]

/-- A loop of `n` steps, each of which carries `P` on, and then one step from `P` to `Q`. -/
theorem run_loop {P : Nat → State → Prop} {Q : State → Prop} {n : Nat} {s : State} (h0 : P 0 s)
    (hloop : ∀ i u, i < n → P i u → ∃ v, step u = .next v ∧ P (i + 1) v)
    (hlast : ∀ u, P n u → ∃ v, step u = .next v ∧ Q v) :
    ∃ t, Host.Core.run Sys2Proof.core (n + 1) s = .next t ∧ Q t := by
  induction n generalizing P s with
  | zero =>
    obtain ⟨t, ht, hQ⟩ := hlast s h0
    exact ⟨t, run_cons ht, hQ⟩
  | succ n ih =>
    obtain ⟨v, hv, hP⟩ := hloop 0 s (Nat.zero_lt_succ n) h0
    obtain ⟨t, hrun, hQ⟩ :=
      ih (P := fun i => P (i + 1)) hP (fun i u hi => hloop (i + 1) u (Nat.succ_lt_succ hi)) hlast
    exact ⟨t, (run_cons hv).trans hrun, hQ⟩

/-- The datagram of chunk `k` on the TX port (spec/30_encoding.md R108). -/
def State.dataDatagram (s : State) (k : Nat) : Addr × Bytes :=
  (s.peer, Frame.bytes ⟨BitVec.ofNat 16 k, 0, 0x0000, s.negWindow, chunkRead s.chunks k⟩)

theorem txHistory_sendData (k : U17) (e : TraceEvent) (s : State) :
    txHistory (s.sendData k e).out = txHistory s.out ++ [s.dataDatagram k.toNat] := by
  rw [sendData_out, txHistory_append, dataFrame, low16_ofNat]
  rfl

/-- With no other agent moving, the frames of `n` chunks from `k` on went out between `s` and `u`, and beside NEXT, RTX
and TXF nothing that a fill or a retransmission reads, or its statement names, has changed. -/
structure Transmitted (s : State) (k n : Nat) (u : State) : Prop where
  moves : u.moves = []
  lifecycle : u.lifecycle = s.lifecycle
  phase : u.phase = s.phase
  err : u.err = s.err
  base : u.base = s.base
  total : u.total = s.total
  negWindow : u.negWindow = s.negWindow
  peer : u.peer = s.peer
  bytes : u.bytes = s.bytes
  rxQueue : u.rxQueue = s.rxQueue
  chunks : u.chunks = s.chunks
  history : txHistory u.out = txHistory s.out ++ (List.range' k n).map s.dataDatagram

namespace Transmitted
variable {s u : State} {k n : Nat} {c : U17}

theorem zero (hm : s.moves = []) (k : Nat) : Transmitted s k 0 s :=
  ⟨hm, rfl, rfl, rfl, rfl, rfl, rfl, rfl, rfl, rfl, rfl, (List.append_nil _).symm⟩

theorem dataDatagram (h : Transmitted s k n u) (j : Nat) : u.dataDatagram j = s.dataDatagram j := by
  simp only [State.dataDatagram, h.peer, h.negWindow, h.chunks]

theorem sendData (h : Transmitted s k n u) (hc : c.toNat = k + n) (e : TraceEvent) :
    Transmitted s k (n + 1) (u.afterMove.sendData c e) :=
  { h with
    moves := congrArg List.tail h.moves
    history := by
      rw [txHistory_sendData, afterMove_out, h.history, hc, List.range'_1_concat, List.map_append, ← List.append_assoc]
      exact congrArg (_ ++ [·]) (h.dataDatagram (k + n)) }

end Transmitted

/-- Settles O31: `run_loop` over the frames from RTX on, then the step back to WAIT. -/
theorem retransmitsWholeWindow : Obligations.RetransmitsWholeWindow := by
  unfold Obligations.RetransmitsWholeWindow
  intro s hp hm hle hmax hchunk
  refine run_loop (P := fun i u => u.nextSeq = s.nextSeq ∧ u.rtx.toNat = s.rtx.toNat + i ∧
    Transmitted s s.rtx.toNat i u) ⟨rfl, rfl, .zero hm _⟩ ?resend ?wait
  case resend =>
    rintro i u hi ⟨hnext, hrtx, h⟩
    have hlt : u.rtx.toNat < s.nextSeq.toNat := by omega
    have hfits := hchunk u.rtx.toNat (by omega) hlt
    have hsucc : (u.rtx + 1).toNat = u.rtx.toNat + 1 := u17_succ_toNat (by omega)
    exact ⟨_, step_retx_resent (.inl h.moves) (h.phase.trans hp) (hnext.symm ▸ hlt) (h.chunks.symm ▸ hfits),
      hnext, hsucc.trans (by omega), { h.sendData hrtx _ with }⟩
  case wait =>
    rintro u ⟨hnext, hrtx, h⟩
    have hend : u.rtx = s.nextSeq := BitVec.eq_of_toNat_eq (by omega)
    exact ⟨_, step_retx_end (.inl h.moves) (h.phase.trans hp) (by rw [hnext, hend]), rfl, rfl, h.base, hnext, hend,
      h.rxQueue, h.bytes, h.lifecycle, h.err, h.history⟩

/-- Settles O32: `run_loop` over the frames from NEXT on, then the step to WAIT. -/
theorem fillsWholeWindow : Obligations.FillsWholeWindow := by
  unfold Obligations.FillsWholeWindow
  intro s n hs hp hm hbase hn hchunk
  have hmax : s.total.toNat ≤ 65535 := (hs.sender (by rw [hp]; rfl)).total_le
  refine run_loop (P := fun i u => u.nextSeq.toNat = s.nextSeq.toNat + i ∧ Transmitted s s.nextSeq.toNat i u)
    ⟨rfl, .zero hm _⟩ ?send ?wait
  case send =>
    rintro i u hi ⟨hnext, h⟩
    have hfits := hchunk u.nextSeq.toNat (by omega) (by omega)
    have hsucc : (u.nextSeq + 1).toNat = u.nextSeq.toNat + 1 := u17_succ_toNat (by omega)
    refine ⟨_, step_fill_sent (.inl h.moves) (h.phase.trans hp) ?_ ?_ ?_ (h.chunks.symm ▸ hfits),
      hsucc.trans (by omega), { h.sendData hnext _ with }⟩ <;> simp only [h.base, h.total, h.negWindow] <;> omega
  case wait =>
    rintro u ⟨hnext, h⟩
    refine ⟨_, step_fill_wait (.inl h.moves) (h.phase.trans hp) ?_ ?_, rfl, rfl, h.base, hnext, h.rxQueue,
      h.history⟩ <;> simp only [h.base, h.total, h.negWindow] <;> omega

/-! ## The order of first transmissions -/

/-- The sequence numbers of the datagrams in `o`, in order of first appearance, are 1 to `n - 1` (spec/42_sender_arq.md
R183). -/
def FirstSeen (o : List Output) (n : Nat) : Prop := (txSeqs o).eraseDups = List.range' 1 (n - 1)

namespace FirstSeen
variable {o new : List Output} {n k : Nat}

theorem nil : FirstSeen [] 1 := rfl

theorem mem_txSeqs (h : FirstSeen o n) : k ∈ txSeqs o ↔ 1 ≤ k ∧ k < n := by
  rw [← List.mem_eraseDups, h, List.mem_range'_1]
  omega

theorem silent (h : FirstSeen o n) (hnew : txSeqs new = []) : FirstSeen (o ++ new) n := by
  rw [FirstSeen, txSeqs_append, hnew, List.append_nil, h]

theorem again (h : FirstSeen o n) (hnew : txSeqs new = [k]) (h1 : 1 ≤ k) (h2 : k < n) : FirstSeen (o ++ new) n := by
  have hk : k ∈ txSeqs o := h.mem_txSeqs.2 ⟨h1, h2⟩
  rw [FirstSeen, txSeqs_append, hnew, List.eraseDups_append, h]
  simp [List.removeAll, hk]

theorem next (h : FirstSeen o n) (hnew : txSeqs new = [n]) (h1 : 1 ≤ n) : FirstSeen (o ++ new) (n + 1) := by
  have hn : n ∉ txSeqs o := fun hn => Nat.lt_irrefl n (h.mem_txSeqs.1 hn).2
  obtain ⟨m, rfl⟩ := Nat.exists_eq_add_of_le' h1
  rw [FirstSeen, txSeqs_append, hnew, List.eraseDups_append, h]
  simp [List.removeAll, List.eraseDups_cons, hn, List.range'_1_concat, Nat.add_comm]

end FirstSeen

/-- All that a step of SEND_ALL in progress does to the TX port and to NEXT: the command goes on with no datagram, with
one of a sequence number below NEXT, or with that of NEXT, which grows; or it ends. -/
inductive SenderStep (s t : State) : Prop where
  | silent (hp : sending t.phase = true) (new : List Output) (hout : t.out = s.out ++ new) (hnew : txSeqs new = [])
      (hn : t.nextSeq = s.nextSeq)
  | again (hp : sending t.phase = true) (new : List Output) (hout : t.out = s.out ++ new) (k : Nat)
      (hnew : txSeqs new = [k]) (h1 : 1 ≤ k) (h2 : k < s.nextSeq.toNat) (hn : t.nextSeq = s.nextSeq)
  | next (hp : sending t.phase = true) (new : List Output) (hout : t.out = s.out ++ new)
      (hnew : txSeqs new = [s.nextSeq.toNat]) (hn : t.nextSeq.toNat = s.nextSeq.toNat + 1)
  | done (h : s.total.toNat < s.base.toNat) (ht : t = sendDone s.afterMove)
  | stopped (hp : sending t.phase = false) (hl : t.lifecycle ≠ .established)

theorem txSeqs_sendData {c : U17} (h : c.toNat ≤ 65535) (d : Addr) (w : U16) (b : Bytes) (e : TraceEvent) :
    txSeqs [.tx d (dataFrame c w b).bytes, .trace e] = [c.toNat] := by
  rw [txSeqs_tx, dataFrame, low16_toNat, Nat.mod_eq_of_lt (Nat.lt_succ_of_le h)]
  rfl

theorem step_sender {s t : State} (hs : s.Inv) (hp : sending s.phase = true) (h : step s = .next t) :
    SenderStep s t := by
  have hsender := hs.sender hp
  have hbase := hsender.base_pos
  have htotal : s.total.toNat ≤ 65535 := hsender.total_le
  cases step_outcome h <;> rename_i ht <;> subst ht
  case stays | ignored | arrival | strayExpiry | clockMoved => exact .silent hp [] (List.append_nil _).symm rfl rfl
  case windowFull | resendDone => exact .silent rfl [] (List.append_nil _).symm rfl rfl
  case refused => exact .silent hp [.result _] rfl rfl rfl
  case ackMoves | ackStale | goBackN => exact .silent rfl [.trace _] rfl rfl rfl
  case sentNew hphase h1 h2 h3 h4 =>
    exact .next hp _ (sendData_out s.nextSeq _ s.afterMove) (txSeqs_sendData (h3.trans htotal) ..)
      (u17_succ_toNat hsender.next_le)
  case resent hphase h1 h4 =>
    have hle : s.rtx.toNat ≤ s.total.toNat := Nat.le_of_lt_succ (h1.trans_le hsender.next_le_total)
    exact .again hp _ (sendData_out s.rtx _ s.afterMove) s.rtx.toNat (txSeqs_sendData (hle.trans htotal) ..)
      (hbase.trans (hsender.rtx_ge hphase)) h1 rfl
  case sendDone hphase h1 => exact .done h1 rfl
  case shortHeader | overlong | handshakeError | socketError | reset => exact .stopped rfl nofun
  -- SEND_ALL is not in progress in the other steps
  case chunkStored hidle _ _ | chunksFilled hidle _ => exact nomatch hidle.symm.trans hp
  all_goals
    rw [‹s.phase = _›] at hp
    exact nomatch hp

/-- SEND_ALL ends normally with every chunk acknowledged, so every chunk was sent (spec/42_sender_arq.md R180). -/
theorem SenderInv.next_eq_of_done {s : State} (h : SenderInv s) (hdone : s.total.toNat < s.base.toNat) :
    s.nextSeq.toNat = s.total.toNat + 1 :=
  Nat.le_antisymm h.next_le_total (Nat.succ_le_of_lt (hdone.trans_le h.base_le_next))

namespace SenderStep
variable {s t : State} {mark : Nat} (h : SenderStep s t) (hs : SenderInv s) (hmark : mark ≤ s.out.length)
  (hseen : FirstSeen (s.out.drop mark) s.nextSeq.toNat)
include h hs hmark hseen

theorem firstSeen (hp : sending t.phase = true) : FirstSeen (t.out.drop mark) t.nextSeq.toNat := by
  cases h with
  | silent _ new hout hnew hn =>
    rw [hout, hn, List.drop_append_of_le_length hmark]
    exact hseen.silent hnew
  | again _ new hout k hnew h1 h2 hn =>
    rw [hout, hn, List.drop_append_of_le_length hmark]
    exact hseen.again hnew h1 h2
  | next _ new hout hnew hn =>
    rw [hout, hn, List.drop_append_of_le_length hmark]
    exact hseen.next hnew (hs.base_pos.trans hs.base_le_next)
  | done _ ht => subst ht; cases hp
  | stopped hp' _ => exact nomatch hp'.symm.trans hp

theorem firstSeen_of_ends (hp : t.phase = .none) (hl : t.lifecycle = .established) :
    FirstSeen (t.out.drop mark) (t.total.toNat + 1) := by
  cases h with
  | silent hp' | again hp' | next hp' => exact nomatch (congrArg sending hp).symm.trans hp'
  | done hdone ht =>
    rw [hs.next_eq_of_done hdone] at hseen
    subst ht
    show FirstSeen ((s.out ++ [_]).drop mark) _
    rw [List.drop_append_of_le_length hmark]
    exact hseen.silent rfl
  | stopped _ hl' => exact absurd hl hl'

end SenderStep

/-- Settles O33: the start by the two cases of SEND_ALL, and each step by `step_sender`. -/
theorem firstTransmissionsInOrder : Obligations.FirstTransmissionsInOrder := by
  unfold Obligations.FirstTransmissionsInOrder
  constructor
  · intro total s t h hfill hp
    by_cases hacc : s.phase = .none ∧ s.lifecycle = .established ∧ s.role = .client ∧ total ≤ 65535 ∧
        (1 ≤ s.negWindow.toNat ∨ total = 0)
    · obtain ⟨-, hl, hr, htotal, hw⟩ := hacc
      cases (exec_sendAll_ok hp hl hr htotal hw).symm.trans h
      rw [List.drop_length]
      exact FirstSeen.nil
    · cases (exec_sendAll_refused hacc).symm.trans h
      exact nomatch hp.symm.trans hfill
  · intro mark s t hs hp hmark hseen h
    have hsender := hs.sender hp
    have hstep := step_sender hs hp h
    exact ⟨hstep.firstSeen hsender hmark hseen, hstep.firstSeen_of_ends hsender hmark hseen⟩

end Sys2Proof.Machine
end

section
/-! PROOFS. The Receiver Delivery Engine (spec/43_receiver.md): RECV_ALL, one frame in RECV, a stream of frames, what the
sink holds, and the datagram that is too short. -/

namespace Sys2Proof.Machine

/-! ## The start of RECV_ALL -/

section
variable {s : State}

theorem exec_recvAll_ok (hp : s.phase = .none) (hl : s.lifecycle = .established) (hr : s.role = .server) :
    exec .recvAll s = .next { s with expected := 1, bytes := 0, t0 := s.now, phase := .recv } :=
  congrArg Host.Outcome.next (if_pos ⟨hp, hl, hr⟩)

theorem exec_recvAll_refused (h : s.phase ≠ .none ∨ s.lifecycle ≠ .established ∨ s.role ≠ .server) :
    exec .recvAll s = .next (refuse s) :=
  congrArg Host.Outcome.next (if_neg (by simpa only [not_and_or] using h))

end

/-- Settles O17: the two cases of RECV_ALL. -/
theorem recvAllStarts : Obligations.RecvAllStarts := by
  unfold Obligations.RecvAllStarts
  exact fun s => ⟨exec_recvAll_ok, exec_recvAll_refused⟩

/-! ## One frame in RECV -/

/-- A counter that equals a 16-bit number is put in a 16-bit field as that number. -/
theorem low16_of_toNat_eq {a : U16} {c : U17} (h : a.toNat = c.toNat) : low16 c = a := by
  rw [low16_ofNat, ← h, BitVec.ofNat_toNat, BitVec.setWidth_eq]

/-- R195 for any state after the receive prelude, written out: the acknowledgment field, which takes EXPECTED, holds the
frame's own sequence. -/
theorem onReceiver_delivers {s : State} (hfin : finBit s.rxf = false)
    (hdrop : s.dropArmed = false ∨ s.rxf.seq ≠ s.dropSeq) (hseq : s.rxf.seq.toNat = s.expected.toNat) :
    onReceiver s = { s with
      txf := ⟨0, s.rxf.seq, 0x0008, s.params.advWindow, []⟩, txfDst := s.peer,
      out := s.out ++ [.sink s.rxf.payload,
        .tx s.peer (Frame.bytes ⟨0, s.rxf.seq, 0x0008, s.params.advWindow, []⟩),
        .trace (.delivered s.rxf.seq s.rxf.payload.length)],
      bytes := s.bytes + BitVec.ofNat 32 s.rxf.payload.length, expected := s.expected + 1 } := by
  rw [onReceiver_accept hfin hdrop hseq, recvAccept, ackDataFrame, low16_of_toNat_eq hseq, List.append_cons,
    List.append_cons]
  rfl

/-- Settles O35: `onReceiver_fin`, for the two instructions and in the engine's step. -/
theorem finStopsReceiver : Obligations.FinStopsReceiver := by
  unfold Obligations.FinStopsReceiver
  constructor
  · intro a s hl hp
    exact ⟨exec_onFrame rfl (congrArg₂ waitOf hl hp) (onReceiver_fin (finBit_fin a)),
      exec_onFrame rfl (congrArg₂ waitOf hl hp) (onReceiver_fin (finBit_finack a))⟩
  · intro s d q f ht hl hp hq hd hfin
    exact step_onFrame ht (congrArg₂ waitOf hl hp) hq hd (onReceiver_fin hfin)

/-- The DATA instruction in RECV, whatever its sequence: the tests of R191 on the state after the receive prelude. -/
theorem exec_data_onReceiver {s t : State} {a : FrameArgs} (hl : s.lifecycle = .established) (hp : s.phase = .recv)
    (h : onReceiver { s with rxQueue := s.rxQueue.tail, rxf := a.frame flagsData, rxfSrc := a.src } = t) :
    exec (.data a) s = .next t := by
  rw [exec, execData, receive_waiting (congrArg₂ waitOf hl hp), State.takeFrame, List.drop_one, ← h]
  rfl

/-- Settles O36: the tests of R191 after FIN, for the DATA instruction. -/
theorem dataAtReceiver : Obligations.DataAtReceiver := by
  unfold Obligations.DataAtReceiver
  intro a s hl hp
  exact ⟨fun harmed hseq => exec_data_onReceiver hl hp (onReceiver_drop (finBit_data a) harmed hseq),
    fun hdrop hseq => exec_data_onReceiver hl hp (onReceiver_delivers (finBit_data a) hdrop hseq),
    fun hdrop hseq => exec_data_onReceiver hl hp (onReceiver_discard (finBit_data a) hdrop hseq)⟩

/-- Settles O37: the tests of R191 after FIN, in the engine's step. -/
theorem receiverTestsInOrder : Obligations.ReceiverTestsInOrder := by
  unfold Obligations.ReceiverTestsInOrder
  intro s d q f ht hl hp hq hd hfin
  have hstep {t : State} := step_onFrame (t := t) ht (congrArg₂ waitOf hl hp) hq hd
  exact ⟨fun harmed hseq => hstep (onReceiver_drop hfin harmed hseq),
    fun hdrop hseq => hstep (onReceiver_delivers hfin hdrop hseq),
    fun hdrop hseq => hstep (onReceiver_discard hfin hdrop hseq)⟩

/-! ## A stream of frames -/

/-- The acceptance test takes a stream's first frame on its own, and the rest from the counter that it leaves. -/
theorem inOrder_cons (e : Nat) (f : Frame) (fs : List Frame) :
    inOrder e (f :: fs) = inOrder e [f] ++ inOrder (e + (inOrder e [f]).length) fs := by
  by_cases h : f.seq.toNat = e <;> simp [inOrder, h]

/-- With no other agent moving, the frames `fs` were delivered and acknowledged between `s` and `u`, and nothing else
reached the sink or the TX port; the receiver is still in RECV with no drop rule armed. -/
structure Received (s : State) (fs : List Frame) (u : State) : Prop where
  moves : u.moves = []
  lifecycle : u.lifecycle = .established
  phase : u.phase = .recv
  dropArmed : u.dropArmed = false
  peer : u.peer = s.peer
  params : u.params = s.params
  expected_le : u.expected.toNat ≤ 65536
  expected : u.expected.toNat = s.expected.toNat + fs.length
  sink : sinkChunks u.out = sinkChunks s.out ++ fs.map Frame.payload
  acks : txHistory u.out = txHistory s.out ++ fs.map (fun f =>
    (s.peer, Frame.bytes ⟨0, f.seq, 0x0008, s.params.advWindow, []⟩))

namespace Received
variable {s u v : State} {fs gs : List Frame}

theorem trans (h1 : Received s fs u) (h2 : Received u gs v) : Received s (fs ++ gs) v :=
  { h2 with
    peer := h2.peer.trans h1.peer
    params := h2.params.trans h1.params
    expected := by rw [h2.expected, h1.expected, List.length_append, Nat.add_assoc]
    sink := by rw [h2.sink, h1.sink, List.map_append, List.append_assoc]
    acks := by rw [h2.acks, h1.acks, h1.peer, h1.params, List.map_append, List.append_assoc] }

/-- The receiver takes one more frame without FIN, from any source. -/
theorem step_next (h : Received s fs u) {src : Addr} {f : Frame} {q : List Datagram}
    (hfin : f.flags.getLsbD 0 = false) (hq : u.rxQueue = ⟨src, f.bytes⟩ :: q) :
    ∃ v, step u = .next v ∧ v.rxQueue = q ∧ Received u (inOrder u.expected.toNat [f]) v := by
  obtain ⟨-, hdeliver, hdiscard⟩ := receiverTestsInOrder u _ q f (.inl h.moves) h.lifecycle h.phase hq
    (codecDecode_bytes f) hfin
  have hmoves : u.moves.tail = [] := congrArg List.tail h.moves
  by_cases hseq : f.seq.toNat = u.expected.toNat
  · -- EXPECTED equals a 16-bit sequence, so its successor is at most 65536
    have hlt := f.seq.isLt
    have hsucc : (u.expected + 1).toNat = u.expected.toNat + 1 := u17_succ_toNat h.expected_le
    refine ⟨_, hdeliver (.inl h.dropArmed) hseq, rfl, ?_⟩
    rw [inOrder, if_pos hseq]
    exact ⟨hmoves, h.lifecycle, h.phase, h.dropArmed, rfl, rfl, hsucc.trans_le (by omega), hsucc, by simp [inOrder],
      by simp [inOrder]⟩
  · refine ⟨_, hdiscard (.inl h.dropArmed) hseq, rfl, ?_⟩
    rw [inOrder, if_neg hseq]
    exact ⟨hmoves, h.lifecycle, h.phase, h.dropArmed, rfl, rfl, h.expected_le, rfl, by simp [inOrder],
      by simp [inOrder]⟩

end Received

/-- As many steps as there are frames take a whole stream without FIN. -/
theorem run_receives {s u : State} {fs : List Frame} {xs : List (Addr × Frame)} {q : List Datagram}
    (h : Received s fs u) (hfin : ∀ x ∈ xs, x.2.flags.getLsbD 0 = false)
    (hq : u.rxQueue = xs.map (fun x => ⟨x.1, x.2.bytes⟩) ++ q) :
    ∃ t, Host.Core.run Sys2Proof.core xs.length u = .next t ∧ t.rxQueue = q ∧
      Received s (fs ++ inOrder u.expected.toNat (xs.map Prod.snd)) t := by
  induction xs generalizing u fs with
  | nil => exact ⟨u, rfl, hq, by simpa [inOrder] using h⟩
  | cons x xs ih =>
    obtain ⟨v, hstep, hqv, hv⟩ := h.step_next (hfin x List.mem_cons_self) hq
    obtain ⟨t, hrun, hqt, ht⟩ := ih (h.trans hv) (fun y hy => hfin y (List.mem_cons_of_mem x hy)) hqv
    refine ⟨t, (run_cons hstep).trans hrun, hqt, ?_⟩
    rw [List.map_cons, inOrder_cons, ← hv.expected, ← List.append_assoc]
    exact ht

/-- Settles O38: `run_receives` from the state in which nothing was received yet. -/
theorem receiverDeliversInOrderSubsequence : Obligations.ReceiverDeliversInOrderSubsequence := by
  unfold Obligations.ReceiverDeliversInOrderSubsequence
  intro s xs q hl hp hm hdrop hmax hfin hq
  have hstart : Received s [] s :=
    ⟨hm, hl, hp, hdrop, rfl, rfl, hmax, rfl, (List.append_nil _).symm, (List.append_nil _).symm⟩
  obtain ⟨t, hrun, hqt, ht⟩ := run_receives hstart hfin hq
  exact ⟨t, hrun, ht.lifecycle, ht.phase, hqt, ht.sink, ht.acks, ht.expected⟩

/-! ## What the sink holds -/

/-- The sink has EXPECTED − 1 chunks in `o`, and BYTES is their total length on its 32 bits (spec/43_receiver.md
R197). -/
structure SinkHolds (o : List Output) (expected : U17) (bytes : U32) : Prop where
  count : (sinkChunks o).length = expected.toNat - 1
  total : bytes = BitVec.ofNat 32 ((sinkChunks o).map List.length).sum

namespace SinkHolds
variable {o new : List Output} {e e' : U17} {b : U32} {chunk : Bytes}

theorem nil : SinkHolds [] 1 0 := ⟨rfl, rfl⟩

theorem silent (h : SinkHolds o e b) (hnew : sinkChunks new = []) : SinkHolds (o ++ new) e b :=
  ⟨by rw [sinkChunks_append, hnew, List.append_nil, h.count], by
    rw [sinkChunks_append, hnew, List.append_nil, h.total]⟩

theorem delivered (h : SinkHolds o e b) (hnew : sinkChunks new = [chunk]) (hpos : 1 ≤ e.toNat)
    (he : e'.toNat = e.toNat + 1) : SinkHolds (o ++ new) e' (b + BitVec.ofNat 32 chunk.length) where
  count := by
    rw [sinkChunks_append, hnew, List.length_append, h.count, he]
    exact Nat.sub_add_cancel hpos
  total := by
    rw [sinkChunks_append, hnew, h.total, ← BitVec.ofNat_add, List.map_append, List.sum_append]
    rfl

end SinkHolds

/-- All that a step of RECV_ALL in progress, no reset, does to the sink, EXPECTED and BYTES: nothing, or the delivery of
one chunk, which both counters count. -/
inductive ReceiverStep (s t : State) : Prop where
  | silent (new : List Output) (hout : t.out = s.out ++ new) (hnew : sinkChunks new = [])
      (he : t.expected = s.expected) (hb : t.bytes = s.bytes)
  | delivered (new : List Output) (hout : t.out = s.out ++ new) (chunk : Bytes) (hnew : sinkChunks new = [chunk])
      (he : t.expected.toNat = s.expected.toNat + 1) (hb : t.bytes = s.bytes + BitVec.ofNat 32 chunk.length)

theorem step_receiver {s t : State} (hs : s.Inv) (hp : s.phase = .recv) (h : step s = .next t)
    (hr : ¬ resetsNext s) : ReceiverStep s t := by
  cases step_outcome h <;> rename_i ht <;> subst ht
  case reset hm => exact absurd (List.head?_eq_some_iff.1 hm) hr
  case delivered d q f _ _ _ _ _ _ _ =>
    exact .delivered [.sink f.payload, .tx s.peer (ackDataFrame s.expected s.params.advWindow).bytes,
      .trace (.delivered f.seq f.payload.length)] (by simp [recvAccept]) f.payload rfl
      (u17_succ_toNat (hs.receiver hp).2) rfl
  case stays | arrival | strayExpiry | chunkStored | chunksFilled | clockMoved =>
    exact .silent [] (List.append_nil _).symm rfl rfl rfl
  case refused | shortHeader | socketError => exact .silent [.result _] rfl rfl rfl rfl
  case finReceived | dropped | outOfOrder => exact .silent [.trace _] rfl rfl rfl rfl
  case finackSent => exact .silent [.tx _ _, .result _] (List.append_assoc ..) rfl rfl rfl
  -- RECV_ALL is not in progress in the other steps
  case ignored hw | handshakeError hw | overlong hw _ => simp [hp] at hw
  all_goals
    revert hp
    rw [‹s.phase = _›]
    exact nofun

theorem ReceiverStep.sinkHolds {s t : State} {mark : Nat} (h : ReceiverStep s t) (hpos : 1 ≤ s.expected.toNat)
    (hmark : mark ≤ s.out.length) (hsink : SinkHolds (s.out.drop mark) s.expected s.bytes) :
    SinkHolds (t.out.drop mark) t.expected t.bytes := by
  cases h with
  | silent new hout hnew he hb =>
    rw [hout, he, hb, List.drop_append_of_le_length hmark]
    exact hsink.silent hnew
  | delivered new hout chunk hnew he hb =>
    rw [hout, hb, List.drop_append_of_le_length hmark]
    exact hsink.delivered hnew hpos he

/-- Settles O39: the start by the two cases of RECV_ALL, and each step by `step_receiver`. -/
theorem sinkMatchesExpected : Obligations.SinkMatchesExpected := by
  unfold Obligations.SinkMatchesExpected
  constructor
  · intro s t h hrecv hp
    by_cases hacc : s.lifecycle = .established ∧ s.role = .server
    · obtain ⟨hl, hr⟩ := hacc
      cases (exec_recvAll_ok hp hl hr).symm.trans h
      rw [List.drop_length]
      exact ⟨SinkHolds.nil.count, rfl⟩
    · cases (exec_recvAll_refused (.inr (not_and_or.1 hacc))).symm.trans h
      exact nomatch hp.symm.trans hrecv
  · intro mark s t hs hp hmark hcount htotal h hr
    have hsink := (step_receiver hs hp h hr).sinkHolds (hs.receiver hp).1 hmark ⟨hcount, htotal⟩
    exact ⟨hsink.count, hsink.total⟩

/-! ## The datagram that is too short -/

/-- The fatal action in a wait for a frame writes ELAPSED in WAIT and RECV only, and posts the progress of the transfer
there (spec/60_exceptions.md R212). -/
theorem raiseFatal_waiting {s : State} {w : Wait} (e : ErrCode) (hw : waitOf s.lifecycle s.phase = some w) :
    raiseFatal e s = { s with
      err := e, timerArmed := false,
      elapsed := if s.phase = .wait ∨ s.phase = .recv then s.params.minus s.now s.t0 else s.elapsed,
      lifecycle := .closed, phase := .none,
      out := s.out ++ [.result (
        if s.phase = .wait then .errSend e ⟨s.bytes, s.params.minus s.now s.t0⟩ (s.base.toNat - 1)
        else if s.phase = .recv then .errRecv e ⟨s.bytes, s.params.minus s.now s.t0⟩
        else .err e)] } := by
  obtain ⟨-, -, hp⟩ | ⟨-, -, hp⟩ | ⟨-, -, hp⟩ | ⟨-, -, hp⟩ | ⟨-, -, hp⟩ | ⟨-, -, hp⟩ := waitOf_eq_some hw <;>
    simp only [raiseFatal, hp] <;> rfl

/-- Settles O40: the short datagram leaves the RX queue, and the fatal action follows. -/
theorem shortDatagramIsFatal : Obligations.ShortDatagramIsFatal := by
  unfold Obligations.ShortDatagramIsFatal
  intro s d q ht hw hq hshort
  obtain ⟨w, hw'⟩ := Option.ne_none_iff_exists'.1 hw
  rw [step_takes_short ht hw hq (codecDecode_of_short hshort), raiseFatal_waiting (s := s.afterMove.rxPop) _ hw',
    State.rxPop, afterMove_rxQueue, hq]
  rfl

end Sys2Proof.Machine
end

section
/-! PROOFS. Exceptions and arbitration (spec/60_exceptions.md): the commands that are refused, the frames that stay
pending, the socket failure, the moves that compete in a timed wait, and how ROLE is entered. -/

namespace Sys2Proof.Machine

/-! ## The instructions -/

/-- Settles O10: every arm answers a next state. -/
theorem everyInstructionAnswersNext : Obligations.EveryInstructionAnswersNext := by
  unfold Obligations.EveryInstructionAnswersNext
  intro i s
  cases i <;> exact ⟨_, rfl⟩

/-- A command outside the table of spec/60_exceptions.md R221 is refused. -/
theorem exec_refused {i : Instr} {s : State} (hc : isCommand i = true) (h : ¬ accepted i s) :
    exec i s = .next (refuse s) := by
  cases i with
  | syn | synack | ack | fin | finack | data => exact absurd hc Bool.false_ne_true
  | cmdReserved => rfl
  | encode => exact exec_encode_refused h
  | decode => exact exec_decode_refused h
  | openConn | accept | recvAll | close => exact congrArg Host.Outcome.next (if_neg h)
  | sendAll => exact exec_sendAll_refused h

/-- An accepted command moves PHASE, or posts a result that is not CmdRefused. -/
theorem exec_accepted {i : Instr} {s t : State} (h : accepted i s) (ht : exec i s = .next t) :
    t.phase ≠ s.phase ∨ ∃ r, r ≠ .err .cmdRefused ∧ t = s.post r := by
  cases i with
  | syn | synack | ack | fin | finack | data | cmdReserved => exact h.elim
  | encode f =>
    right
    cases hf : codecEncode f with
    | none =>
      cases (exec_encode_invalidPayload h hf).symm.trans ht
      exact ⟨_, by decide, rfl⟩
    | some b =>
      cases (exec_encode_ok h hf).symm.trans ht
      exact ⟨.okBytes b, nofun, rfl⟩
  | decode b =>
    right
    cases hb : codecDecode b with
    | none =>
      cases (exec_decode_shortHeader h hb).symm.trans ht
      exact ⟨_, by decide, rfl⟩
    | some f =>
      cases (exec_decode_ok h hb).symm.trans ht
      exact ⟨.okFrame f, nofun, rfl⟩
  | openConn | accept | sendAll | recvAll | close =>
    have hp : s.phase = .none := h.1
    cases (congrArg Host.Outcome.next (if_pos h)).symm.trans ht
    exact .inl (hp ▸ nofun)

theorem post_injective {s : State} {r r' : CmdResult} (h : s.post r = s.post r') : r = r' := by
  simpa [State.post] using h

/-- Settles O13: `exec_refused`, and by `exec_accepted` no accepted command looks refused. -/
theorem commandsRefusedOutsideTable : Obligations.CommandsRefusedOutsideTable := by
  unfold Obligations.CommandsRefusedOutsideTable
  refine ⟨fun i s hc => ⟨exec_refused hc, fun hrefused haccepted => ?_⟩, fun s => rfl⟩
  obtain hphase | ⟨r, hr, hpost⟩ := exec_accepted haccepted hrefused
  · exact hphase rfl
  · exact hr (post_injective hpost).symm

/-! ## The frames that stay pending -/

/-- The six waits of spec/60_exceptions.md R227, each with the STATE that spec/10_state.md R22 gives its PHASE. -/
theorem waitOf_eq_none_iff (l : Lifecycle) (p : Phase) : waitOf l p = none ↔
    ¬ ((l = .synSent ∧ p = .hsWait) ∨ (l = .idle ∧ p = .listen) ∨ (l = .synRcvd ∧ p = .hsWait) ∨
      (l = .established ∧ p = .wait) ∨ (l = .finSent ∧ p = .finWait) ∨ (l = .established ∧ p = .recv)) := by
  constructor
  · rintro h (⟨rfl, rfl⟩ | ⟨rfl, rfl⟩ | ⟨rfl, rfl⟩ | ⟨rfl, rfl⟩ | ⟨rfl, rfl⟩ | ⟨rfl, rfl⟩) <;> cases h
  · intro h
    by_contra hw
    obtain ⟨w, hw⟩ := Option.ne_none_iff_exists'.1 hw
    have := waitOf_eq_some hw
    tauto

/-- An instruction that is no command is a frame, and its meaning is `receive` of that frame. -/
theorem exec_frame {i : Instr} (h : isCommand i = false) : ∃ f src, ∀ s, exec i s = .next (receive f src s) := by
  cases i with
  | syn | synack | ack | fin | finack | data => exact ⟨_, _, fun _ => rfl⟩
  | cmdReserved | encode | decode | openConn | accept | sendAll | recvAll | close =>
    exact absurd h.symm Bool.false_ne_true

@[simp] theorem fillStep_rxQueue (s : State) : (fillStep s).rxQueue = s.rxQueue := by
  simp only [fillStep, sendNew, apply_ite State.rxQueue]
  simp [sendDone, enterWait]

@[simp] theorem retxStep_rxQueue (s : State) : (retxStep s).rxQueue = s.rxQueue := by
  simp only [retxStep, resend, apply_ite State.rxQueue]
  simp [enterWait]

/-- The internal steps of spec/60_exceptions.md R227 take no frame. -/
theorem internalStep_rxQueue (s : State) : (internalStep s).rxQueue = s.rxQueue := by
  unfold internalStep
  split
  · exact fillStep_rxQueue s
  · exact retxStep_rxQueue s
  · rfl
  · rfl

/-- Settles O46: the pairs by `waitOf_eq_none_iff`, exec by `receive_pending`, the engine's step by
`internalStep_rxQueue`. -/
theorem framesStayPendingOutsideWaits : Obligations.FramesStayPendingOutsideWaits := by
  unfold Obligations.FramesStayPendingOutsideWaits
  refine ⟨waitOf_eq_none_iff, fun i s hi hw => ?_, fun s t hturn hw h => ?_⟩
  · obtain ⟨f, src, hexec⟩ := exec_frame hi
    rw [hexec, receive_pending hw]
  · cases (step_internal hturn hw).symm.trans h
    exact internalStep_rxQueue s.afterMove

/-! ## ROLE -/

/-- Settles O53: of all the cases of a step only OPEN, ACCEPT and reset write ROLE. -/
theorem roleFixedForSession : Obligations.RoleFixedForSession := by
  unfold Obligations.RoleFixedForSession
  intro s t h hreset hrole
  cases step_outcome h <;> rename_i ht <;> subst ht
  case openConn args hm _ _ hr =>
    obtain ⟨ms, hm⟩ := List.head?_eq_some_iff.1 hm
    exact ⟨hr, args, ms, .inl ⟨hm, rfl⟩⟩
  case accept args hm _ _ hr =>
    obtain ⟨ms, hm⟩ := List.head?_eq_some_iff.1 hm
    exact ⟨hr, args, ms, .inr ⟨hm, rfl⟩⟩
  case reset hm => exact absurd (List.head?_eq_some_iff.1 hm) hreset
  all_goals exact absurd rfl hrole

/-! ## The socket failure -/

section
variable {s : State} (e : ErrCode)

/-- The fatal action outside a transfer: ELAPSED is left alone and the error is posted bare. -/
theorem raiseFatal_bare (h : s.phase = .listen ∨ s.phase = .hsWait ∨ s.phase = .finWait) :
    raiseFatal e s = { s with
      err := e, timerArmed := false, lifecycle := .closed, phase := .none, out := s.out ++ [.result (.err e)] } := by
  rcases h with h | h | h <;> simp only [raiseFatal, h] <;> rfl

/-- The fatal action during SEND_ALL. -/
theorem raiseFatal_sendAll (h : s.phase = .fill ∨ s.phase = .wait ∨ s.phase = .retx) :
    raiseFatal e s = { s with
      err := e, timerArmed := false, elapsed := s.params.minus s.now s.t0, lifecycle := .closed, phase := .none,
      out := s.out ++ [.result (.errSend e ⟨s.bytes, s.params.minus s.now s.t0⟩ (s.base.toNat - 1))] } := by
  rcases h with h | h | h <;> simp only [raiseFatal, h] <;> rfl

/-- The fatal action during RECV_ALL, FIN_RCVD included. -/
theorem raiseFatal_recvAll (h : s.phase = .recv) :
    raiseFatal e s = { s with
      err := e, timerArmed := false, elapsed := s.params.minus s.now s.t0, lifecycle := .closed, phase := .none,
      out := s.out ++ [.result (.errRecv e ⟨s.bytes, s.params.minus s.now s.t0⟩)] } := by
  simp only [raiseFatal, h]
  rfl

end

theorem step_socketFail {s : State} {ms : List Move} (hm : s.moves = .socketFail :: ms) :
    step s = .next (socketFailure { s with moves := ms }) := by
  rw [step_cons hm, afterMove_eq hm]
  rfl

/-- Settles O41: `socketFailure` by PHASE, and the fatal action by the command in progress. -/
theorem socketFailureIsFatal : Obligations.SocketFailureIsFatal := by
  unfold Obligations.SocketFailureIsFatal
  intro s ms hm
  have hfatal (hp : s.phase ≠ .none) : step s = .next (raiseFatal .socketError { s with moves := ms }) := by
    rw [step_socketFail hm, socketFailure_busy (s := { s with moves := ms }) hp]
  refine ⟨fun hp => ?idle, fun hp => ?bare, fun hp => ?sending, fun hp => ?receiving⟩
  case idle => rw [step_socketFail hm, socketFailure_idle (s := { s with moves := ms }) hp]
  case bare =>
    rw [hfatal (by rcases hp with hp | hp | hp <;> simp [hp]), raiseFatal_bare (s := { s with moves := ms }) _ hp]
  case sending =>
    rw [hfatal (by rcases hp with hp | hp | hp <;> simp [hp]), raiseFatal_sendAll (s := { s with moves := ms }) _ hp]
  case receiving => rw [hfatal (by simp [hp]), raiseFatal_recvAll (s := { s with moves := ms }) _ hp]

/-! ## The moves that compete in a timed wait -/

theorem applyAck_keeps (a : U16) (s : State) :
    (applyAck a s).rxQueue = s.rxQueue ∧ (applyAck a s).rxf = s.rxf ∧ (applyAck a s).rxfSrc = s.rxfSrc ∧
      (applyAck a s).timerArmed = s.timerArmed := by
  unfold applyAck
  split <;> exact ⟨rfl, rfl, rfl, rfl⟩

/-- No rule of a wait touches the RX queue or RXF: the receive prelude alone takes the frame. -/
theorem onFrame_keeps (w : Wait) (s : State) :
    (onFrame w s).rxQueue = s.rxQueue ∧ (onFrame w s).rxf = s.rxf ∧ (onFrame w s).rxfSrc = s.rxfSrc := by
  cases w with
  | clientReply => simp only [onFrame, onClientReply]; split <;> exact ⟨rfl, rfl, rfl⟩
  | serverListen => simp only [onFrame, onServerListen]; split <;> exact ⟨rfl, rfl, rfl⟩
  | serverThird => simp only [onFrame, onServerThird]; split <;> exact ⟨rfl, rfl, rfl⟩
  | senderAck =>
    obtain ⟨hqueue, hrxf, hsrc, -⟩ := applyAck_keeps s.rxf.ack s.timerDisarm
    simp only [onFrame, onSenderAck]
    split
    · exact ⟨hqueue, hrxf, hsrc⟩
    · exact ⟨rfl, rfl, rfl⟩
  | clientClose => simp only [onFrame, onClientClose]; split <;> exact ⟨rfl, rfl, rfl⟩
  | receiver => simp only [onFrame, onReceiver]; split_ifs <;> exact ⟨rfl, rfl, rfl⟩

/-- A frame with ACK set ends the sender's wait and disarms the timer, whether or not it moves BASE. -/
theorem onSenderAck_ends {s : State} (h : ackBit s.rxf = true) :
    (onSenderAck s).phase = .fill ∧ (onSenderAck s).timerArmed = false := by
  obtain ⟨-, -, -, htimer⟩ := applyAck_keeps s.rxf.ack s.timerDisarm
  rw [onSenderAck_ack h]
  exact ⟨rfl, htimer⟩

/-- A frame with ACK set closes the client, ERR unchanged. -/
theorem onClientClose_closes {s : State} (h : ackBit s.rxf = true) :
    (onClientClose s).lifecycle = .closed ∧ (onClientClose s).err = s.err := by
  rw [onClientClose_ack h]
  exact ⟨rfl, rfl⟩

/-- The three waits that the timer bounds (spec/10_state.md R40). -/
def boundedWait (l : Lifecycle) (p : Phase) : Prop :=
  (l = .synSent ∧ p = .hsWait) ∨ (l = .established ∧ p = .wait) ∨ (l = .finSent ∧ p = .finWait)

theorem boundedWait.exists_waitOf {l : Lifecycle} {p : Phase} (h : boundedWait l p) : ∃ w, waitOf l p = some w := by
  obtain ⟨rfl, rfl⟩ | ⟨rfl, rfl⟩ | ⟨rfl, rfl⟩ := h <;> exact ⟨_, rfl⟩

/-- The frame with the required bits ends each bounded wait (spec/30_encoding.md R97). -/
theorem onFrame_boundedWait {s : State} {w : Wait} (h : boundedWait s.lifecycle s.phase)
    (hw : waitOf s.lifecycle s.phase = some w) :
    (s.phase = .hsWait → synBit s.rxf = true → ackBit s.rxf = true → (onFrame w s).lifecycle = .established) ∧
    (s.phase = .wait → ackBit s.rxf = true → (onFrame w s).phase = .fill ∧ (onFrame w s).timerArmed = false) ∧
    (s.phase = .finWait → ackBit s.rxf = true → (onFrame w s).lifecycle = .closed ∧ (onFrame w s).err = s.err) := by
  obtain ⟨hl, hp⟩ | ⟨hl, hp⟩ | ⟨hl, hp⟩ := h
  · obtain rfl : w = .clientReply := Option.some.inj (hw.symm.trans (congrArg₂ waitOf hl hp))
    exact ⟨fun _ hsyn hack => congrArg State.lifecycle (onClientReply_synack hsyn hack), by simp [hp], by simp [hp]⟩
  · obtain rfl : w = .senderAck := Option.some.inj (hw.symm.trans (congrArg₂ waitOf hl hp))
    exact ⟨by simp [hp], fun _ hack => onSenderAck_ends hack, by simp [hp]⟩
  · obtain rfl : w = .clientClose := Option.some.inj (hw.symm.trans (congrArg₂ waitOf hl hp))
    exact ⟨by simp [hp], by simp [hp], fun _ hack => onClientClose_closes hack⟩

/-- The expiry ends each bounded wait in its own way and leaves the RX queue alone (spec/60_exceptions.md R223). -/
theorem timerExpiry_boundedWait {s : State} (h : boundedWait s.lifecycle s.phase) (ha : s.timerArmed = true) :
    (timerExpiry s).rxQueue = s.rxQueue ∧ (timerExpiry s).timerArmed = false ∧
    (s.phase = .hsWait → (timerExpiry s).lifecycle = .closed ∧ (timerExpiry s).err = .handshakeTimeout) ∧
    (s.phase = .wait → (timerExpiry s).phase = .retx ∧ (timerExpiry s).rtx = s.base) ∧
    (s.phase = .finWait → (timerExpiry s).lifecycle = .closed ∧ (timerExpiry s).err = s.err) := by
  obtain ⟨hl, hp⟩ | ⟨-, hp⟩ | ⟨hl, hp⟩ := h
  · rw [timerExpiry_handshake ha hl hp]
    exact ⟨rfl, rfl, fun _ => ⟨rfl, rfl⟩, by simp [hp], by simp [hp]⟩
  · rw [timerExpiry_wait ha hp]
    exact ⟨rfl, rfl, by simp [hp], fun _ => ⟨rfl, rfl⟩, by simp [hp]⟩
  · rw [timerExpiry_close ha hl hp]
    exact ⟨rfl, rfl, by simp [hp], by simp [hp], fun _ => ⟨rfl, rfl⟩⟩

/-- The step that takes the only move listed. -/
theorem step_only (s : State) (m : Move) : step { s with moves := [m] } = (moveFetch m { s with moves := [] }).run :=
  step_cons rfl

/-- Settles O44: the pop by what the datagram decodes to and `onFrame_boundedWait`, the expiry by
`timerExpiry_boundedWait`, and the two moves that pre-empt them. -/
theorem frameAndExpiryBothPossible : Obligations.FrameAndExpiryBothPossible := by
  unfold Obligations.FrameAndExpiryBothPossible
  intro s d q hwait harmed hq
  obtain ⟨w, hw⟩ := boundedWait.exists_waitOf hwait
  refine ⟨?pop, ?expiry, ?socketFailure, ?reset⟩
  case pop =>
    have hturn : enginesTurn { s with moves := [.engine] } := .inr ⟨[], rfl⟩
    cases hd : codecDecode d.bytes with
    | none =>
      have hpending : waitOf s.lifecycle s.phase ≠ none := hw ▸ Option.some_ne_none w
      exact ⟨_, step_takes_short hturn hpending hq hd, congrArg (List.drop 1) hq, fun _ => ⟨rfl, rfl⟩, nofun⟩
    | some f =>
      let taken : State := { s with moves := [], rxQueue := q, rxf := f, rxfSrc := d.src }
      obtain ⟨hqueue, hrxf, hsrc⟩ := onFrame_keeps w taken
      refine ⟨onFrame w taken, step_onFrame hturn hw hq hd rfl, hqueue, nofun, ?_⟩
      rintro _ ⟨⟩
      exact ⟨hrxf, hsrc, onFrame_boundedWait (s := taken) hwait hw⟩
  case expiry =>
    obtain ⟨hqueue, hends⟩ := timerExpiry_boundedWait (s := { s with moves := [] }) hwait harmed
    exact ⟨_, step_only s .expire, hqueue.trans hq, hends⟩
  case socketFailure =>
    have hbusy : s.phase ≠ .none := fun hp => by simp [hp] at hw
    have hstep : step { s with moves := [.socketFail] } = .next (socketFailure { s with moves := [] }) := step_only s _
    rw [socketFailure_busy (s := { s with moves := [] }) hbusy] at hstep
    exact ⟨_, hstep, hq, rfl, rfl⟩
  case reset => exact ⟨_, step_only s .reset, rfl, rfl, rfl⟩

end Sys2Proof.Machine
end

section
/-! PROOFS. Reset (spec/10_state.md R48, spec/70_reset_and_hazards.md R250): the registers it writes, what it leaves alone,
and the engine after it, which waits for a command. -/

namespace Sys2Proof.Machine

/-- Every register with a stated reset value holds that value, and the RX queue is empty (spec/10_state.md R48). -/
def HasResetValues (t : State) : Prop :=
  t.lifecycle = .idle ∧ t.phase = .none ∧ t.role = .none ∧ t.err = .none ∧
    t.base = 1 ∧ t.nextSeq = 1 ∧ t.expected = 1 ∧ t.rtx = 1 ∧ t.total = 0 ∧
    t.cfgWindow = 3 ∧ t.peerWindow = 0 ∧ t.negWindow = 0 ∧ t.dropSeq = 0 ∧ t.dropArmed = false ∧
    t.timerArmed = false ∧ t.bytes = 0 ∧ t.rxQueue = []

theorem hasResetValues_resetWith (p : Config.Params) : HasResetValues (State.resetWith p) := by
  simp only [HasResetValues, State.resetWith, and_self]

/-- The reset input differs from a state of `State.resetWith` in outputs and inputs only. -/
theorem hasResetValues_resetInput (s : State) : HasResetValues (resetInput s) := hasResetValues_resetWith s.params

/-- The reset input leaves the outputs, the inputs and the parameters alone. -/
theorem resetInput_keeps (s : State) :
    (resetInput s).out = s.out ∧ (resetInput s).moves = s.moves ∧ (resetInput s).chunks = s.chunks ∧
      (resetInput s).now = s.now ∧ (resetInput s).params = s.params :=
  ⟨rfl, rfl, rfl, rfl, rfl⟩

theorem step_resetInput {s : State} {ms : List Move} (hm : s.moves = .reset :: ms) :
    step s = .next (resetInput { s with moves := ms }) := by
  rw [step_cons hm, afterMove_eq hm]
  rfl

theorem internalStep_none {s : State} (h : s.phase = .none) : internalStep s = s := by
  unfold internalStep; cases s.lifecycle <;> simp [h]

/-- With no command in progress and no move to come, nothing happens (spec/60_exceptions.md R227). -/
theorem step_phase_none {s : State} (hm : s.moves = []) (hp : s.phase = .none) : step s = .next s := by
  rw [step_internal (.inl hm) (by rw [hp, waitOf_none]), afterMove_of_nil hm, internalStep_none hp]

/-- Settles O48: what the reset input writes and what it keeps, the values of `State.resetWith`, and the engine with no
command in progress. -/
theorem resetRestoresStatedValues : Obligations.ResetRestoresStatedValues := by
  unfold Obligations.ResetRestoresStatedValues
  refine ⟨fun s ms hm => ⟨_, step_resetInput hm, ?_⟩, hasResetValues_resetWith _, step_phase_none rfl rfl⟩
  have hwritten := hasResetValues_resetInput { s with moves := ms }
  have hkept := resetInput_keeps { s with moves := ms }
  simpa only [HasResetValues, and_assoc] using And.intro hwritten hkept

end Sys2Proof.Machine
end
